-- ==== Sys2Proof/Word.lean ====
section
/-! DEFINITION. The two word types of the machine: every bus transfer is one byte and every address has 16 bits
(00_scope.md R5). -/

namespace Sys2Proof

/-- One byte: the width of A, X, Y, S, P and of every bus transfer (R5). -/
abbrev Byte := BitVec 8

/-- An address or the program counter: 16 bits (R5). -/
abbrev Addr := BitVec 16

end Sys2Proof
end

