-- ==== Sys2Proof/Machine/Bits.lean ====
section
/-! DEFINITION. Byte order and sign extension (00_scope.md R6, R7; 20_memory.md R69): the halves of an address, the
address of two halves, the signed offset of a branch. -/

namespace Sys2Proof

/-- `hi(a)`: bits 15 to 8 (R6). -/
def hi (a : Addr) : Byte := a.extractLsb' 8 8

/-- `lo(a)`: bits 7 to 0 (R6). -/
def lo (a : Addr) : Byte := a.extractLsb' 0 8

/-- `{h, l}`: the address whose high byte is `h` and whose low byte is `l` (R6). -/
def join (h l : Byte) : Addr := h ++ l

/-- `sext_16(v)`: the byte read as a number in -128..127, modulo 2^16 (R7). -/
def sext (v : Byte) : Addr := v.signExtend 16

/-- The zero-page address `{$00, z}` (R93). -/
def zeroPage (z : Byte) : Addr := join 0x00 z

/-- The stack address `{$01, s}` (R24). -/
def stackAddr (s : Byte) : Addr := join 0x01 s

/-- The next address of the same page, `{hi(a), u8(lo(a) + 1)}`: where the second byte of a pointer is read (R71). -/
def nextInPage (a : Addr) : Addr := join (hi a) (lo a + 1)

/-- The addition of an index to a low byte carries out (R135, R141). -/
def carries (l index : Byte) : Bool := decide (255 < l.toNat + index.toNat)

end Sys2Proof
end

