-- ==== Sys2Proof/Syntax.lean ====
section
/-! DEFINITION. The instructions: one constructor for each row of opcode_table.json (30_encoding.md R94, R95), named by
mnemonic and addressing mode. Rows that are the same instruction in the same mode under several opcodes (the twelve JAM,
the undocumented NOPs of one mode, the two ANC) are one constructor that carries its opcode. Any other operand is the
operand byte, or the address its two bytes make; every value of either is valid (R98). -/

namespace Sys2Proof

/-- The addressing modes (R90, R93, R99). -/
inductive Mode where
  | imp | acc | imm | zp | zpx | zpy | izx | izy | rel | abs | abx | aby | ind
  deriving DecidableEq, Repr

/-- The 77 mnemonics of the opcode table (R95). -/
inductive Mnemonic where
  | brk | ora | jam | slo | nop | asl | php | anc | bpl | clc | jsr | and
  | rla | bit | rol | plp | bmi | sec | rti | eor | sre | lsr | pha | alr
  | jmp | bvc | cli | rts | adc | rra | ror | pla | arr | bvs | sei | sta
  | sax | sty | stx | dey | txa | ane | bcc | sha | tya | txs | tas | shy
  | shx | ldy | lda | ldx | lax | tay | tax | lxa | bcs | clv | tsx | las
  | cpy | cmp | dcp | dec | iny | dex | sbx | bne | cld | cpx | sbc | isc
  | inc | inx | usbc | beq | sed
  deriving DecidableEq, Repr

/-- The instructions, in the order of their opcodes. -/
inductive Instr where
  | brk (sig : Byte)
  | oraIzx (z : Byte)
  | jam (op : Byte)
  | sloIzx (z : Byte)
  | nopZp (op : Byte) (z : Byte)
  | oraZp (z : Byte)
  | aslZp (z : Byte)
  | sloZp (z : Byte)
  | php
  | oraImm (v : Byte)
  | aslAcc
  | ancImm (op : Byte) (v : Byte)
  | nopAbs (a : Addr)
  | oraAbs (a : Addr)
  | aslAbs (a : Addr)
  | sloAbs (a : Addr)
  | bpl (o : Byte)
  | oraIzy (z : Byte)
  | sloIzy (z : Byte)
  | nopZpx (op : Byte) (z : Byte)
  | oraZpx (z : Byte)
  | aslZpx (z : Byte)
  | sloZpx (z : Byte)
  | clc
  | oraAby (a : Addr)
  | nopImp (op : Byte)
  | sloAby (a : Addr)
  | nopAbx (op : Byte) (a : Addr)
  | oraAbx (a : Addr)
  | aslAbx (a : Addr)
  | sloAbx (a : Addr)
  | jsr (a : Addr)
  | andIzx (z : Byte)
  | rlaIzx (z : Byte)
  | bitZp (z : Byte)
  | andZp (z : Byte)
  | rolZp (z : Byte)
  | rlaZp (z : Byte)
  | plp
  | andImm (v : Byte)
  | rolAcc
  | bitAbs (a : Addr)
  | andAbs (a : Addr)
  | rolAbs (a : Addr)
  | rlaAbs (a : Addr)
  | bmi (o : Byte)
  | andIzy (z : Byte)
  | rlaIzy (z : Byte)
  | andZpx (z : Byte)
  | rolZpx (z : Byte)
  | rlaZpx (z : Byte)
  | sec
  | andAby (a : Addr)
  | rlaAby (a : Addr)
  | andAbx (a : Addr)
  | rolAbx (a : Addr)
  | rlaAbx (a : Addr)
  | rti
  | eorIzx (z : Byte)
  | sreIzx (z : Byte)
  | eorZp (z : Byte)
  | lsrZp (z : Byte)
  | sreZp (z : Byte)
  | pha
  | eorImm (v : Byte)
  | lsrAcc
  | alrImm (v : Byte)
  | jmpAbs (a : Addr)
  | eorAbs (a : Addr)
  | lsrAbs (a : Addr)
  | sreAbs (a : Addr)
  | bvc (o : Byte)
  | eorIzy (z : Byte)
  | sreIzy (z : Byte)
  | eorZpx (z : Byte)
  | lsrZpx (z : Byte)
  | sreZpx (z : Byte)
  | cli
  | eorAby (a : Addr)
  | sreAby (a : Addr)
  | eorAbx (a : Addr)
  | lsrAbx (a : Addr)
  | sreAbx (a : Addr)
  | rts
  | adcIzx (z : Byte)
  | rraIzx (z : Byte)
  | adcZp (z : Byte)
  | rorZp (z : Byte)
  | rraZp (z : Byte)
  | pla
  | adcImm (v : Byte)
  | rorAcc
  | arrImm (v : Byte)
  | jmpInd (a : Addr)
  | adcAbs (a : Addr)
  | rorAbs (a : Addr)
  | rraAbs (a : Addr)
  | bvs (o : Byte)
  | adcIzy (z : Byte)
  | rraIzy (z : Byte)
  | adcZpx (z : Byte)
  | rorZpx (z : Byte)
  | rraZpx (z : Byte)
  | sei
  | adcAby (a : Addr)
  | rraAby (a : Addr)
  | adcAbx (a : Addr)
  | rorAbx (a : Addr)
  | rraAbx (a : Addr)
  | nopImm (op : Byte) (v : Byte)
  | staIzx (z : Byte)
  | saxIzx (z : Byte)
  | styZp (z : Byte)
  | staZp (z : Byte)
  | stxZp (z : Byte)
  | saxZp (z : Byte)
  | dey
  | txa
  | aneImm (v : Byte)
  | styAbs (a : Addr)
  | staAbs (a : Addr)
  | stxAbs (a : Addr)
  | saxAbs (a : Addr)
  | bcc (o : Byte)
  | staIzy (z : Byte)
  | shaIzy (z : Byte)
  | styZpx (z : Byte)
  | staZpx (z : Byte)
  | stxZpy (z : Byte)
  | saxZpy (z : Byte)
  | tya
  | staAby (a : Addr)
  | txs
  | tasAby (a : Addr)
  | shyAbx (a : Addr)
  | staAbx (a : Addr)
  | shxAby (a : Addr)
  | shaAby (a : Addr)
  | ldyImm (v : Byte)
  | ldaIzx (z : Byte)
  | ldxImm (v : Byte)
  | laxIzx (z : Byte)
  | ldyZp (z : Byte)
  | ldaZp (z : Byte)
  | ldxZp (z : Byte)
  | laxZp (z : Byte)
  | tay
  | ldaImm (v : Byte)
  | tax
  | lxaImm (v : Byte)
  | ldyAbs (a : Addr)
  | ldaAbs (a : Addr)
  | ldxAbs (a : Addr)
  | laxAbs (a : Addr)
  | bcs (o : Byte)
  | ldaIzy (z : Byte)
  | laxIzy (z : Byte)
  | ldyZpx (z : Byte)
  | ldaZpx (z : Byte)
  | ldxZpy (z : Byte)
  | laxZpy (z : Byte)
  | clv
  | ldaAby (a : Addr)
  | tsx
  | lasAby (a : Addr)
  | ldyAbx (a : Addr)
  | ldaAbx (a : Addr)
  | ldxAby (a : Addr)
  | laxAby (a : Addr)
  | cpyImm (v : Byte)
  | cmpIzx (z : Byte)
  | dcpIzx (z : Byte)
  | cpyZp (z : Byte)
  | cmpZp (z : Byte)
  | decZp (z : Byte)
  | dcpZp (z : Byte)
  | iny
  | cmpImm (v : Byte)
  | dex
  | sbxImm (v : Byte)
  | cpyAbs (a : Addr)
  | cmpAbs (a : Addr)
  | decAbs (a : Addr)
  | dcpAbs (a : Addr)
  | bne (o : Byte)
  | cmpIzy (z : Byte)
  | dcpIzy (z : Byte)
  | cmpZpx (z : Byte)
  | decZpx (z : Byte)
  | dcpZpx (z : Byte)
  | cld
  | cmpAby (a : Addr)
  | dcpAby (a : Addr)
  | cmpAbx (a : Addr)
  | decAbx (a : Addr)
  | dcpAbx (a : Addr)
  | cpxImm (v : Byte)
  | sbcIzx (z : Byte)
  | iscIzx (z : Byte)
  | cpxZp (z : Byte)
  | sbcZp (z : Byte)
  | incZp (z : Byte)
  | iscZp (z : Byte)
  | inx
  | sbcImm (v : Byte)
  | nop
  | usbcImm (v : Byte)
  | cpxAbs (a : Addr)
  | sbcAbs (a : Addr)
  | incAbs (a : Addr)
  | iscAbs (a : Addr)
  | beq (o : Byte)
  | sbcIzy (z : Byte)
  | iscIzy (z : Byte)
  | sbcZpx (z : Byte)
  | incZpx (z : Byte)
  | iscZpx (z : Byte)
  | sed
  | sbcAby (a : Addr)
  | iscAby (a : Addr)
  | sbcAbx (a : Addr)
  | incAbx (a : Addr)
  | iscAbx (a : Addr)
  deriving DecidableEq, Repr

end Sys2Proof
end

