-- ==== Sys2Proof/Decode.lean ====
section
/-! DEFINITION. The decoder (30_encoding.md R90 to R98), total on every list of bytes, the encoder, and the opcode
table's mnemonic, mode and legality, which execution and the Disassembler share (R104). The rows are those of the
opcode matrix R95: the high nibble of the opcode selects the function, the low nibble its line. -/

namespace Sys2Proof

/-- One cell of the opcode matrix (R95): the mnemonic, the mode, and whether the opcode is documented. -/
structure OpInfo where
  mnemonic   : Mnemonic
  mode       : Mode
  documented : Bool
  deriving DecidableEq, Repr

/-- Row 0x of the opcode matrix (R95). -/
def infoRow0 : Nat → OpInfo
  | 0 => ⟨.brk, .imp, true⟩
  | 1 => ⟨.ora, .izx, true⟩
  | 2 => ⟨.jam, .imp, false⟩
  | 3 => ⟨.slo, .izx, false⟩
  | 4 => ⟨.nop, .zp, false⟩
  | 5 => ⟨.ora, .zp, true⟩
  | 6 => ⟨.asl, .zp, true⟩
  | 7 => ⟨.slo, .zp, false⟩
  | 8 => ⟨.php, .imp, true⟩
  | 9 => ⟨.ora, .imm, true⟩
  | 10 => ⟨.asl, .acc, true⟩
  | 11 => ⟨.anc, .imm, false⟩
  | 12 => ⟨.nop, .abs, false⟩
  | 13 => ⟨.ora, .abs, true⟩
  | 14 => ⟨.asl, .abs, true⟩
  | _ => ⟨.slo, .abs, false⟩

/-- Row 1x of the opcode matrix (R95). -/
def infoRow1 : Nat → OpInfo
  | 0 => ⟨.bpl, .rel, true⟩
  | 1 => ⟨.ora, .izy, true⟩
  | 2 => ⟨.jam, .imp, false⟩
  | 3 => ⟨.slo, .izy, false⟩
  | 4 => ⟨.nop, .zpx, false⟩
  | 5 => ⟨.ora, .zpx, true⟩
  | 6 => ⟨.asl, .zpx, true⟩
  | 7 => ⟨.slo, .zpx, false⟩
  | 8 => ⟨.clc, .imp, true⟩
  | 9 => ⟨.ora, .aby, true⟩
  | 10 => ⟨.nop, .imp, false⟩
  | 11 => ⟨.slo, .aby, false⟩
  | 12 => ⟨.nop, .abx, false⟩
  | 13 => ⟨.ora, .abx, true⟩
  | 14 => ⟨.asl, .abx, true⟩
  | _ => ⟨.slo, .abx, false⟩

/-- Row 2x of the opcode matrix (R95). -/
def infoRow2 : Nat → OpInfo
  | 0 => ⟨.jsr, .abs, true⟩
  | 1 => ⟨.and, .izx, true⟩
  | 2 => ⟨.jam, .imp, false⟩
  | 3 => ⟨.rla, .izx, false⟩
  | 4 => ⟨.bit, .zp, true⟩
  | 5 => ⟨.and, .zp, true⟩
  | 6 => ⟨.rol, .zp, true⟩
  | 7 => ⟨.rla, .zp, false⟩
  | 8 => ⟨.plp, .imp, true⟩
  | 9 => ⟨.and, .imm, true⟩
  | 10 => ⟨.rol, .acc, true⟩
  | 11 => ⟨.anc, .imm, false⟩
  | 12 => ⟨.bit, .abs, true⟩
  | 13 => ⟨.and, .abs, true⟩
  | 14 => ⟨.rol, .abs, true⟩
  | _ => ⟨.rla, .abs, false⟩

/-- Row 3x of the opcode matrix (R95). -/
def infoRow3 : Nat → OpInfo
  | 0 => ⟨.bmi, .rel, true⟩
  | 1 => ⟨.and, .izy, true⟩
  | 2 => ⟨.jam, .imp, false⟩
  | 3 => ⟨.rla, .izy, false⟩
  | 4 => ⟨.nop, .zpx, false⟩
  | 5 => ⟨.and, .zpx, true⟩
  | 6 => ⟨.rol, .zpx, true⟩
  | 7 => ⟨.rla, .zpx, false⟩
  | 8 => ⟨.sec, .imp, true⟩
  | 9 => ⟨.and, .aby, true⟩
  | 10 => ⟨.nop, .imp, false⟩
  | 11 => ⟨.rla, .aby, false⟩
  | 12 => ⟨.nop, .abx, false⟩
  | 13 => ⟨.and, .abx, true⟩
  | 14 => ⟨.rol, .abx, true⟩
  | _ => ⟨.rla, .abx, false⟩

/-- Row 4x of the opcode matrix (R95). -/
def infoRow4 : Nat → OpInfo
  | 0 => ⟨.rti, .imp, true⟩
  | 1 => ⟨.eor, .izx, true⟩
  | 2 => ⟨.jam, .imp, false⟩
  | 3 => ⟨.sre, .izx, false⟩
  | 4 => ⟨.nop, .zp, false⟩
  | 5 => ⟨.eor, .zp, true⟩
  | 6 => ⟨.lsr, .zp, true⟩
  | 7 => ⟨.sre, .zp, false⟩
  | 8 => ⟨.pha, .imp, true⟩
  | 9 => ⟨.eor, .imm, true⟩
  | 10 => ⟨.lsr, .acc, true⟩
  | 11 => ⟨.alr, .imm, false⟩
  | 12 => ⟨.jmp, .abs, true⟩
  | 13 => ⟨.eor, .abs, true⟩
  | 14 => ⟨.lsr, .abs, true⟩
  | _ => ⟨.sre, .abs, false⟩

/-- Row 5x of the opcode matrix (R95). -/
def infoRow5 : Nat → OpInfo
  | 0 => ⟨.bvc, .rel, true⟩
  | 1 => ⟨.eor, .izy, true⟩
  | 2 => ⟨.jam, .imp, false⟩
  | 3 => ⟨.sre, .izy, false⟩
  | 4 => ⟨.nop, .zpx, false⟩
  | 5 => ⟨.eor, .zpx, true⟩
  | 6 => ⟨.lsr, .zpx, true⟩
  | 7 => ⟨.sre, .zpx, false⟩
  | 8 => ⟨.cli, .imp, true⟩
  | 9 => ⟨.eor, .aby, true⟩
  | 10 => ⟨.nop, .imp, false⟩
  | 11 => ⟨.sre, .aby, false⟩
  | 12 => ⟨.nop, .abx, false⟩
  | 13 => ⟨.eor, .abx, true⟩
  | 14 => ⟨.lsr, .abx, true⟩
  | _ => ⟨.sre, .abx, false⟩

/-- Row 6x of the opcode matrix (R95). -/
def infoRow6 : Nat → OpInfo
  | 0 => ⟨.rts, .imp, true⟩
  | 1 => ⟨.adc, .izx, true⟩
  | 2 => ⟨.jam, .imp, false⟩
  | 3 => ⟨.rra, .izx, false⟩
  | 4 => ⟨.nop, .zp, false⟩
  | 5 => ⟨.adc, .zp, true⟩
  | 6 => ⟨.ror, .zp, true⟩
  | 7 => ⟨.rra, .zp, false⟩
  | 8 => ⟨.pla, .imp, true⟩
  | 9 => ⟨.adc, .imm, true⟩
  | 10 => ⟨.ror, .acc, true⟩
  | 11 => ⟨.arr, .imm, false⟩
  | 12 => ⟨.jmp, .ind, true⟩
  | 13 => ⟨.adc, .abs, true⟩
  | 14 => ⟨.ror, .abs, true⟩
  | _ => ⟨.rra, .abs, false⟩

/-- Row 7x of the opcode matrix (R95). -/
def infoRow7 : Nat → OpInfo
  | 0 => ⟨.bvs, .rel, true⟩
  | 1 => ⟨.adc, .izy, true⟩
  | 2 => ⟨.jam, .imp, false⟩
  | 3 => ⟨.rra, .izy, false⟩
  | 4 => ⟨.nop, .zpx, false⟩
  | 5 => ⟨.adc, .zpx, true⟩
  | 6 => ⟨.ror, .zpx, true⟩
  | 7 => ⟨.rra, .zpx, false⟩
  | 8 => ⟨.sei, .imp, true⟩
  | 9 => ⟨.adc, .aby, true⟩
  | 10 => ⟨.nop, .imp, false⟩
  | 11 => ⟨.rra, .aby, false⟩
  | 12 => ⟨.nop, .abx, false⟩
  | 13 => ⟨.adc, .abx, true⟩
  | 14 => ⟨.ror, .abx, true⟩
  | _ => ⟨.rra, .abx, false⟩

/-- Row 8x of the opcode matrix (R95). -/
def infoRow8 : Nat → OpInfo
  | 0 => ⟨.nop, .imm, false⟩
  | 1 => ⟨.sta, .izx, true⟩
  | 2 => ⟨.nop, .imm, false⟩
  | 3 => ⟨.sax, .izx, false⟩
  | 4 => ⟨.sty, .zp, true⟩
  | 5 => ⟨.sta, .zp, true⟩
  | 6 => ⟨.stx, .zp, true⟩
  | 7 => ⟨.sax, .zp, false⟩
  | 8 => ⟨.dey, .imp, true⟩
  | 9 => ⟨.nop, .imm, false⟩
  | 10 => ⟨.txa, .imp, true⟩
  | 11 => ⟨.ane, .imm, false⟩
  | 12 => ⟨.sty, .abs, true⟩
  | 13 => ⟨.sta, .abs, true⟩
  | 14 => ⟨.stx, .abs, true⟩
  | _ => ⟨.sax, .abs, false⟩

/-- Row 9x of the opcode matrix (R95). -/
def infoRow9 : Nat → OpInfo
  | 0 => ⟨.bcc, .rel, true⟩
  | 1 => ⟨.sta, .izy, true⟩
  | 2 => ⟨.jam, .imp, false⟩
  | 3 => ⟨.sha, .izy, false⟩
  | 4 => ⟨.sty, .zpx, true⟩
  | 5 => ⟨.sta, .zpx, true⟩
  | 6 => ⟨.stx, .zpy, true⟩
  | 7 => ⟨.sax, .zpy, false⟩
  | 8 => ⟨.tya, .imp, true⟩
  | 9 => ⟨.sta, .aby, true⟩
  | 10 => ⟨.txs, .imp, true⟩
  | 11 => ⟨.tas, .aby, false⟩
  | 12 => ⟨.shy, .abx, false⟩
  | 13 => ⟨.sta, .abx, true⟩
  | 14 => ⟨.shx, .aby, false⟩
  | _ => ⟨.sha, .aby, false⟩

/-- Row Ax of the opcode matrix (R95). -/
def infoRowA : Nat → OpInfo
  | 0 => ⟨.ldy, .imm, true⟩
  | 1 => ⟨.lda, .izx, true⟩
  | 2 => ⟨.ldx, .imm, true⟩
  | 3 => ⟨.lax, .izx, false⟩
  | 4 => ⟨.ldy, .zp, true⟩
  | 5 => ⟨.lda, .zp, true⟩
  | 6 => ⟨.ldx, .zp, true⟩
  | 7 => ⟨.lax, .zp, false⟩
  | 8 => ⟨.tay, .imp, true⟩
  | 9 => ⟨.lda, .imm, true⟩
  | 10 => ⟨.tax, .imp, true⟩
  | 11 => ⟨.lxa, .imm, false⟩
  | 12 => ⟨.ldy, .abs, true⟩
  | 13 => ⟨.lda, .abs, true⟩
  | 14 => ⟨.ldx, .abs, true⟩
  | _ => ⟨.lax, .abs, false⟩

/-- Row Bx of the opcode matrix (R95). -/
def infoRowB : Nat → OpInfo
  | 0 => ⟨.bcs, .rel, true⟩
  | 1 => ⟨.lda, .izy, true⟩
  | 2 => ⟨.jam, .imp, false⟩
  | 3 => ⟨.lax, .izy, false⟩
  | 4 => ⟨.ldy, .zpx, true⟩
  | 5 => ⟨.lda, .zpx, true⟩
  | 6 => ⟨.ldx, .zpy, true⟩
  | 7 => ⟨.lax, .zpy, false⟩
  | 8 => ⟨.clv, .imp, true⟩
  | 9 => ⟨.lda, .aby, true⟩
  | 10 => ⟨.tsx, .imp, true⟩
  | 11 => ⟨.las, .aby, false⟩
  | 12 => ⟨.ldy, .abx, true⟩
  | 13 => ⟨.lda, .abx, true⟩
  | 14 => ⟨.ldx, .aby, true⟩
  | _ => ⟨.lax, .aby, false⟩

/-- Row Cx of the opcode matrix (R95). -/
def infoRowC : Nat → OpInfo
  | 0 => ⟨.cpy, .imm, true⟩
  | 1 => ⟨.cmp, .izx, true⟩
  | 2 => ⟨.nop, .imm, false⟩
  | 3 => ⟨.dcp, .izx, false⟩
  | 4 => ⟨.cpy, .zp, true⟩
  | 5 => ⟨.cmp, .zp, true⟩
  | 6 => ⟨.dec, .zp, true⟩
  | 7 => ⟨.dcp, .zp, false⟩
  | 8 => ⟨.iny, .imp, true⟩
  | 9 => ⟨.cmp, .imm, true⟩
  | 10 => ⟨.dex, .imp, true⟩
  | 11 => ⟨.sbx, .imm, false⟩
  | 12 => ⟨.cpy, .abs, true⟩
  | 13 => ⟨.cmp, .abs, true⟩
  | 14 => ⟨.dec, .abs, true⟩
  | _ => ⟨.dcp, .abs, false⟩

/-- Row Dx of the opcode matrix (R95). -/
def infoRowD : Nat → OpInfo
  | 0 => ⟨.bne, .rel, true⟩
  | 1 => ⟨.cmp, .izy, true⟩
  | 2 => ⟨.jam, .imp, false⟩
  | 3 => ⟨.dcp, .izy, false⟩
  | 4 => ⟨.nop, .zpx, false⟩
  | 5 => ⟨.cmp, .zpx, true⟩
  | 6 => ⟨.dec, .zpx, true⟩
  | 7 => ⟨.dcp, .zpx, false⟩
  | 8 => ⟨.cld, .imp, true⟩
  | 9 => ⟨.cmp, .aby, true⟩
  | 10 => ⟨.nop, .imp, false⟩
  | 11 => ⟨.dcp, .aby, false⟩
  | 12 => ⟨.nop, .abx, false⟩
  | 13 => ⟨.cmp, .abx, true⟩
  | 14 => ⟨.dec, .abx, true⟩
  | _ => ⟨.dcp, .abx, false⟩

/-- Row Ex of the opcode matrix (R95). -/
def infoRowE : Nat → OpInfo
  | 0 => ⟨.cpx, .imm, true⟩
  | 1 => ⟨.sbc, .izx, true⟩
  | 2 => ⟨.nop, .imm, false⟩
  | 3 => ⟨.isc, .izx, false⟩
  | 4 => ⟨.cpx, .zp, true⟩
  | 5 => ⟨.sbc, .zp, true⟩
  | 6 => ⟨.inc, .zp, true⟩
  | 7 => ⟨.isc, .zp, false⟩
  | 8 => ⟨.inx, .imp, true⟩
  | 9 => ⟨.sbc, .imm, true⟩
  | 10 => ⟨.nop, .imp, true⟩
  | 11 => ⟨.usbc, .imm, false⟩
  | 12 => ⟨.cpx, .abs, true⟩
  | 13 => ⟨.sbc, .abs, true⟩
  | 14 => ⟨.inc, .abs, true⟩
  | _ => ⟨.isc, .abs, false⟩

/-- Row Fx of the opcode matrix (R95). -/
def infoRowF : Nat → OpInfo
  | 0 => ⟨.beq, .rel, true⟩
  | 1 => ⟨.sbc, .izy, true⟩
  | 2 => ⟨.jam, .imp, false⟩
  | 3 => ⟨.isc, .izy, false⟩
  | 4 => ⟨.nop, .zpx, false⟩
  | 5 => ⟨.sbc, .zpx, true⟩
  | 6 => ⟨.inc, .zpx, true⟩
  | 7 => ⟨.isc, .zpx, false⟩
  | 8 => ⟨.sed, .imp, true⟩
  | 9 => ⟨.sbc, .aby, true⟩
  | 10 => ⟨.nop, .imp, false⟩
  | 11 => ⟨.isc, .aby, false⟩
  | 12 => ⟨.nop, .abx, false⟩
  | 13 => ⟨.sbc, .abx, true⟩
  | 14 => ⟨.inc, .abx, true⟩
  | _ => ⟨.isc, .abx, false⟩

/-- The opcode's cell in the matrix (R95). -/
def opInfo (op : Byte) : OpInfo :=
  match op.toNat / 16 with
  | 0 => infoRow0 (op.toNat % 16)
  | 1 => infoRow1 (op.toNat % 16)
  | 2 => infoRow2 (op.toNat % 16)
  | 3 => infoRow3 (op.toNat % 16)
  | 4 => infoRow4 (op.toNat % 16)
  | 5 => infoRow5 (op.toNat % 16)
  | 6 => infoRow6 (op.toNat % 16)
  | 7 => infoRow7 (op.toNat % 16)
  | 8 => infoRow8 (op.toNat % 16)
  | 9 => infoRow9 (op.toNat % 16)
  | 10 => infoRowA (op.toNat % 16)
  | 11 => infoRowB (op.toNat % 16)
  | 12 => infoRowC (op.toNat % 16)
  | 13 => infoRowD (op.toNat % 16)
  | 14 => infoRowE (op.toNat % 16)
  | _ => infoRowF (op.toNat % 16)

/-- `illegal(op)`: the illegal-opcode test of execution and of the Disassembler (R104). -/
def illegal (op : Byte) : Bool := !(opInfo op).documented

/-- The length of a mode (R90). -/
def Mode.length : Mode → Nat
  | .imp | .acc => 1
  | .imm | .zp | .zpx | .zpy | .izx | .izy | .rel => 2
  | .abs | .abx | .aby | .ind => 3

/-- The length of an instruction by its first byte (R91): its mode's, but 2 for BRK. -/
def opLength (op : Byte) : Nat :=
  match (opInfo op).mnemonic with
  | .brk => 2
  | _ => (opInfo op).mode.length

/-- The instructions of row 0x (R95), from the operand bytes in the order they are stored. -/
def buildRow0 (n : Nat) (l h : Byte) : Instr :=
  match n with
  | 0 => .brk l
  | 1 => .oraIzx l
  | 2 => .jam 0x02
  | 3 => .sloIzx l
  | 4 => .nopZp 0x04 l
  | 5 => .oraZp l
  | 6 => .aslZp l
  | 7 => .sloZp l
  | 8 => .php
  | 9 => .oraImm l
  | 10 => .aslAcc
  | 11 => .ancImm 0x0B l
  | 12 => .nopAbs (join h l)
  | 13 => .oraAbs (join h l)
  | 14 => .aslAbs (join h l)
  | _ => .sloAbs (join h l)

/-- The instructions of row 1x (R95), from the operand bytes in the order they are stored. -/
def buildRow1 (n : Nat) (l h : Byte) : Instr :=
  match n with
  | 0 => .bpl l
  | 1 => .oraIzy l
  | 2 => .jam 0x12
  | 3 => .sloIzy l
  | 4 => .nopZpx 0x14 l
  | 5 => .oraZpx l
  | 6 => .aslZpx l
  | 7 => .sloZpx l
  | 8 => .clc
  | 9 => .oraAby (join h l)
  | 10 => .nopImp 0x1A
  | 11 => .sloAby (join h l)
  | 12 => .nopAbx 0x1C (join h l)
  | 13 => .oraAbx (join h l)
  | 14 => .aslAbx (join h l)
  | _ => .sloAbx (join h l)

/-- The instructions of row 2x (R95), from the operand bytes in the order they are stored. -/
def buildRow2 (n : Nat) (l h : Byte) : Instr :=
  match n with
  | 0 => .jsr (join h l)
  | 1 => .andIzx l
  | 2 => .jam 0x22
  | 3 => .rlaIzx l
  | 4 => .bitZp l
  | 5 => .andZp l
  | 6 => .rolZp l
  | 7 => .rlaZp l
  | 8 => .plp
  | 9 => .andImm l
  | 10 => .rolAcc
  | 11 => .ancImm 0x2B l
  | 12 => .bitAbs (join h l)
  | 13 => .andAbs (join h l)
  | 14 => .rolAbs (join h l)
  | _ => .rlaAbs (join h l)

/-- The instructions of row 3x (R95), from the operand bytes in the order they are stored. -/
def buildRow3 (n : Nat) (l h : Byte) : Instr :=
  match n with
  | 0 => .bmi l
  | 1 => .andIzy l
  | 2 => .jam 0x32
  | 3 => .rlaIzy l
  | 4 => .nopZpx 0x34 l
  | 5 => .andZpx l
  | 6 => .rolZpx l
  | 7 => .rlaZpx l
  | 8 => .sec
  | 9 => .andAby (join h l)
  | 10 => .nopImp 0x3A
  | 11 => .rlaAby (join h l)
  | 12 => .nopAbx 0x3C (join h l)
  | 13 => .andAbx (join h l)
  | 14 => .rolAbx (join h l)
  | _ => .rlaAbx (join h l)

/-- The instructions of row 4x (R95), from the operand bytes in the order they are stored. -/
def buildRow4 (n : Nat) (l h : Byte) : Instr :=
  match n with
  | 0 => .rti
  | 1 => .eorIzx l
  | 2 => .jam 0x42
  | 3 => .sreIzx l
  | 4 => .nopZp 0x44 l
  | 5 => .eorZp l
  | 6 => .lsrZp l
  | 7 => .sreZp l
  | 8 => .pha
  | 9 => .eorImm l
  | 10 => .lsrAcc
  | 11 => .alrImm l
  | 12 => .jmpAbs (join h l)
  | 13 => .eorAbs (join h l)
  | 14 => .lsrAbs (join h l)
  | _ => .sreAbs (join h l)

/-- The instructions of row 5x (R95), from the operand bytes in the order they are stored. -/
def buildRow5 (n : Nat) (l h : Byte) : Instr :=
  match n with
  | 0 => .bvc l
  | 1 => .eorIzy l
  | 2 => .jam 0x52
  | 3 => .sreIzy l
  | 4 => .nopZpx 0x54 l
  | 5 => .eorZpx l
  | 6 => .lsrZpx l
  | 7 => .sreZpx l
  | 8 => .cli
  | 9 => .eorAby (join h l)
  | 10 => .nopImp 0x5A
  | 11 => .sreAby (join h l)
  | 12 => .nopAbx 0x5C (join h l)
  | 13 => .eorAbx (join h l)
  | 14 => .lsrAbx (join h l)
  | _ => .sreAbx (join h l)

/-- The instructions of row 6x (R95), from the operand bytes in the order they are stored. -/
def buildRow6 (n : Nat) (l h : Byte) : Instr :=
  match n with
  | 0 => .rts
  | 1 => .adcIzx l
  | 2 => .jam 0x62
  | 3 => .rraIzx l
  | 4 => .nopZp 0x64 l
  | 5 => .adcZp l
  | 6 => .rorZp l
  | 7 => .rraZp l
  | 8 => .pla
  | 9 => .adcImm l
  | 10 => .rorAcc
  | 11 => .arrImm l
  | 12 => .jmpInd (join h l)
  | 13 => .adcAbs (join h l)
  | 14 => .rorAbs (join h l)
  | _ => .rraAbs (join h l)

/-- The instructions of row 7x (R95), from the operand bytes in the order they are stored. -/
def buildRow7 (n : Nat) (l h : Byte) : Instr :=
  match n with
  | 0 => .bvs l
  | 1 => .adcIzy l
  | 2 => .jam 0x72
  | 3 => .rraIzy l
  | 4 => .nopZpx 0x74 l
  | 5 => .adcZpx l
  | 6 => .rorZpx l
  | 7 => .rraZpx l
  | 8 => .sei
  | 9 => .adcAby (join h l)
  | 10 => .nopImp 0x7A
  | 11 => .rraAby (join h l)
  | 12 => .nopAbx 0x7C (join h l)
  | 13 => .adcAbx (join h l)
  | 14 => .rorAbx (join h l)
  | _ => .rraAbx (join h l)

/-- The instructions of row 8x (R95), from the operand bytes in the order they are stored. -/
def buildRow8 (n : Nat) (l h : Byte) : Instr :=
  match n with
  | 0 => .nopImm 0x80 l
  | 1 => .staIzx l
  | 2 => .nopImm 0x82 l
  | 3 => .saxIzx l
  | 4 => .styZp l
  | 5 => .staZp l
  | 6 => .stxZp l
  | 7 => .saxZp l
  | 8 => .dey
  | 9 => .nopImm 0x89 l
  | 10 => .txa
  | 11 => .aneImm l
  | 12 => .styAbs (join h l)
  | 13 => .staAbs (join h l)
  | 14 => .stxAbs (join h l)
  | _ => .saxAbs (join h l)

/-- The instructions of row 9x (R95), from the operand bytes in the order they are stored. -/
def buildRow9 (n : Nat) (l h : Byte) : Instr :=
  match n with
  | 0 => .bcc l
  | 1 => .staIzy l
  | 2 => .jam 0x92
  | 3 => .shaIzy l
  | 4 => .styZpx l
  | 5 => .staZpx l
  | 6 => .stxZpy l
  | 7 => .saxZpy l
  | 8 => .tya
  | 9 => .staAby (join h l)
  | 10 => .txs
  | 11 => .tasAby (join h l)
  | 12 => .shyAbx (join h l)
  | 13 => .staAbx (join h l)
  | 14 => .shxAby (join h l)
  | _ => .shaAby (join h l)

/-- The instructions of row Ax (R95), from the operand bytes in the order they are stored. -/
def buildRowA (n : Nat) (l h : Byte) : Instr :=
  match n with
  | 0 => .ldyImm l
  | 1 => .ldaIzx l
  | 2 => .ldxImm l
  | 3 => .laxIzx l
  | 4 => .ldyZp l
  | 5 => .ldaZp l
  | 6 => .ldxZp l
  | 7 => .laxZp l
  | 8 => .tay
  | 9 => .ldaImm l
  | 10 => .tax
  | 11 => .lxaImm l
  | 12 => .ldyAbs (join h l)
  | 13 => .ldaAbs (join h l)
  | 14 => .ldxAbs (join h l)
  | _ => .laxAbs (join h l)

/-- The instructions of row Bx (R95), from the operand bytes in the order they are stored. -/
def buildRowB (n : Nat) (l h : Byte) : Instr :=
  match n with
  | 0 => .bcs l
  | 1 => .ldaIzy l
  | 2 => .jam 0xB2
  | 3 => .laxIzy l
  | 4 => .ldyZpx l
  | 5 => .ldaZpx l
  | 6 => .ldxZpy l
  | 7 => .laxZpy l
  | 8 => .clv
  | 9 => .ldaAby (join h l)
  | 10 => .tsx
  | 11 => .lasAby (join h l)
  | 12 => .ldyAbx (join h l)
  | 13 => .ldaAbx (join h l)
  | 14 => .ldxAby (join h l)
  | _ => .laxAby (join h l)

/-- The instructions of row Cx (R95), from the operand bytes in the order they are stored. -/
def buildRowC (n : Nat) (l h : Byte) : Instr :=
  match n with
  | 0 => .cpyImm l
  | 1 => .cmpIzx l
  | 2 => .nopImm 0xC2 l
  | 3 => .dcpIzx l
  | 4 => .cpyZp l
  | 5 => .cmpZp l
  | 6 => .decZp l
  | 7 => .dcpZp l
  | 8 => .iny
  | 9 => .cmpImm l
  | 10 => .dex
  | 11 => .sbxImm l
  | 12 => .cpyAbs (join h l)
  | 13 => .cmpAbs (join h l)
  | 14 => .decAbs (join h l)
  | _ => .dcpAbs (join h l)

/-- The instructions of row Dx (R95), from the operand bytes in the order they are stored. -/
def buildRowD (n : Nat) (l h : Byte) : Instr :=
  match n with
  | 0 => .bne l
  | 1 => .cmpIzy l
  | 2 => .jam 0xD2
  | 3 => .dcpIzy l
  | 4 => .nopZpx 0xD4 l
  | 5 => .cmpZpx l
  | 6 => .decZpx l
  | 7 => .dcpZpx l
  | 8 => .cld
  | 9 => .cmpAby (join h l)
  | 10 => .nopImp 0xDA
  | 11 => .dcpAby (join h l)
  | 12 => .nopAbx 0xDC (join h l)
  | 13 => .cmpAbx (join h l)
  | 14 => .decAbx (join h l)
  | _ => .dcpAbx (join h l)

/-- The instructions of row Ex (R95), from the operand bytes in the order they are stored. -/
def buildRowE (n : Nat) (l h : Byte) : Instr :=
  match n with
  | 0 => .cpxImm l
  | 1 => .sbcIzx l
  | 2 => .nopImm 0xE2 l
  | 3 => .iscIzx l
  | 4 => .cpxZp l
  | 5 => .sbcZp l
  | 6 => .incZp l
  | 7 => .iscZp l
  | 8 => .inx
  | 9 => .sbcImm l
  | 10 => .nop
  | 11 => .usbcImm l
  | 12 => .cpxAbs (join h l)
  | 13 => .sbcAbs (join h l)
  | 14 => .incAbs (join h l)
  | _ => .iscAbs (join h l)

/-- The instructions of row Fx (R95), from the operand bytes in the order they are stored. -/
def buildRowF (n : Nat) (l h : Byte) : Instr :=
  match n with
  | 0 => .beq l
  | 1 => .sbcIzy l
  | 2 => .jam 0xF2
  | 3 => .iscIzy l
  | 4 => .nopZpx 0xF4 l
  | 5 => .sbcZpx l
  | 6 => .incZpx l
  | 7 => .iscZpx l
  | 8 => .sed
  | 9 => .sbcAby (join h l)
  | 10 => .nopImp 0xFA
  | 11 => .iscAby (join h l)
  | 12 => .nopAbx 0xFC (join h l)
  | 13 => .sbcAbx (join h l)
  | 14 => .incAbx (join h l)
  | _ => .iscAbx (join h l)

/-- The instruction with this opcode and these operand bytes; the bytes its length does not reach are not read. -/
def build (op l h : Byte) : Instr :=
  match op.toNat / 16 with
  | 0 => buildRow0 (op.toNat % 16) l h
  | 1 => buildRow1 (op.toNat % 16) l h
  | 2 => buildRow2 (op.toNat % 16) l h
  | 3 => buildRow3 (op.toNat % 16) l h
  | 4 => buildRow4 (op.toNat % 16) l h
  | 5 => buildRow5 (op.toNat % 16) l h
  | 6 => buildRow6 (op.toNat % 16) l h
  | 7 => buildRow7 (op.toNat % 16) l h
  | 8 => buildRow8 (op.toNat % 16) l h
  | 9 => buildRow9 (op.toNat % 16) l h
  | 10 => buildRowA (op.toNat % 16) l h
  | 11 => buildRowB (op.toNat % 16) l h
  | 12 => buildRowC (op.toNat % 16) l h
  | 13 => buildRowD (op.toNat % 16) l h
  | 14 => buildRowE (op.toNat % 16) l h
  | _ => buildRowF (op.toNat % 16) l h

/-- Why bytes are not an instruction. Every first byte is an opcode (R94), so only bytes that are missing can be. -/
inductive DecodeError where
  | empty
  | truncated (opcode : Byte)
  deriving DecidableEq, Repr

/-- Reads one instruction and answers the bytes after it. -/
def decode : List Byte → Except DecodeError (Instr × List Byte)
  | [] => .error .empty
  | op :: rest =>
    match opLength op, rest with
    | 1, rest => .ok (build op 0 0, rest)
    | 2, l :: rest => .ok (build op l 0, rest)
    | 3, l :: h :: rest => .ok (build op l h, rest)
    | _, _ => .error (.truncated op)

/-- The bytes of an instruction in ascending addresses (R90): the opcode, then the operand, low byte first (R69). -/
def encode : Instr → List Byte
  | .brk sig => [0x00, sig]
  | .oraIzx z => [0x01, z]
  | .jam op => [op]
  | .sloIzx z => [0x03, z]
  | .nopZp op z => [op, z]
  | .oraZp z => [0x05, z]
  | .aslZp z => [0x06, z]
  | .sloZp z => [0x07, z]
  | .php => [0x08]
  | .oraImm v => [0x09, v]
  | .aslAcc => [0x0A]
  | .ancImm op v => [op, v]
  | .nopAbs a => [0x0C, lo a, hi a]
  | .oraAbs a => [0x0D, lo a, hi a]
  | .aslAbs a => [0x0E, lo a, hi a]
  | .sloAbs a => [0x0F, lo a, hi a]
  | .bpl o => [0x10, o]
  | .oraIzy z => [0x11, z]
  | .sloIzy z => [0x13, z]
  | .nopZpx op z => [op, z]
  | .oraZpx z => [0x15, z]
  | .aslZpx z => [0x16, z]
  | .sloZpx z => [0x17, z]
  | .clc => [0x18]
  | .oraAby a => [0x19, lo a, hi a]
  | .nopImp op => [op]
  | .sloAby a => [0x1B, lo a, hi a]
  | .nopAbx op a => [op, lo a, hi a]
  | .oraAbx a => [0x1D, lo a, hi a]
  | .aslAbx a => [0x1E, lo a, hi a]
  | .sloAbx a => [0x1F, lo a, hi a]
  | .jsr a => [0x20, lo a, hi a]
  | .andIzx z => [0x21, z]
  | .rlaIzx z => [0x23, z]
  | .bitZp z => [0x24, z]
  | .andZp z => [0x25, z]
  | .rolZp z => [0x26, z]
  | .rlaZp z => [0x27, z]
  | .plp => [0x28]
  | .andImm v => [0x29, v]
  | .rolAcc => [0x2A]
  | .bitAbs a => [0x2C, lo a, hi a]
  | .andAbs a => [0x2D, lo a, hi a]
  | .rolAbs a => [0x2E, lo a, hi a]
  | .rlaAbs a => [0x2F, lo a, hi a]
  | .bmi o => [0x30, o]
  | .andIzy z => [0x31, z]
  | .rlaIzy z => [0x33, z]
  | .andZpx z => [0x35, z]
  | .rolZpx z => [0x36, z]
  | .rlaZpx z => [0x37, z]
  | .sec => [0x38]
  | .andAby a => [0x39, lo a, hi a]
  | .rlaAby a => [0x3B, lo a, hi a]
  | .andAbx a => [0x3D, lo a, hi a]
  | .rolAbx a => [0x3E, lo a, hi a]
  | .rlaAbx a => [0x3F, lo a, hi a]
  | .rti => [0x40]
  | .eorIzx z => [0x41, z]
  | .sreIzx z => [0x43, z]
  | .eorZp z => [0x45, z]
  | .lsrZp z => [0x46, z]
  | .sreZp z => [0x47, z]
  | .pha => [0x48]
  | .eorImm v => [0x49, v]
  | .lsrAcc => [0x4A]
  | .alrImm v => [0x4B, v]
  | .jmpAbs a => [0x4C, lo a, hi a]
  | .eorAbs a => [0x4D, lo a, hi a]
  | .lsrAbs a => [0x4E, lo a, hi a]
  | .sreAbs a => [0x4F, lo a, hi a]
  | .bvc o => [0x50, o]
  | .eorIzy z => [0x51, z]
  | .sreIzy z => [0x53, z]
  | .eorZpx z => [0x55, z]
  | .lsrZpx z => [0x56, z]
  | .sreZpx z => [0x57, z]
  | .cli => [0x58]
  | .eorAby a => [0x59, lo a, hi a]
  | .sreAby a => [0x5B, lo a, hi a]
  | .eorAbx a => [0x5D, lo a, hi a]
  | .lsrAbx a => [0x5E, lo a, hi a]
  | .sreAbx a => [0x5F, lo a, hi a]
  | .rts => [0x60]
  | .adcIzx z => [0x61, z]
  | .rraIzx z => [0x63, z]
  | .adcZp z => [0x65, z]
  | .rorZp z => [0x66, z]
  | .rraZp z => [0x67, z]
  | .pla => [0x68]
  | .adcImm v => [0x69, v]
  | .rorAcc => [0x6A]
  | .arrImm v => [0x6B, v]
  | .jmpInd a => [0x6C, lo a, hi a]
  | .adcAbs a => [0x6D, lo a, hi a]
  | .rorAbs a => [0x6E, lo a, hi a]
  | .rraAbs a => [0x6F, lo a, hi a]
  | .bvs o => [0x70, o]
  | .adcIzy z => [0x71, z]
  | .rraIzy z => [0x73, z]
  | .adcZpx z => [0x75, z]
  | .rorZpx z => [0x76, z]
  | .rraZpx z => [0x77, z]
  | .sei => [0x78]
  | .adcAby a => [0x79, lo a, hi a]
  | .rraAby a => [0x7B, lo a, hi a]
  | .adcAbx a => [0x7D, lo a, hi a]
  | .rorAbx a => [0x7E, lo a, hi a]
  | .rraAbx a => [0x7F, lo a, hi a]
  | .nopImm op v => [op, v]
  | .staIzx z => [0x81, z]
  | .saxIzx z => [0x83, z]
  | .styZp z => [0x84, z]
  | .staZp z => [0x85, z]
  | .stxZp z => [0x86, z]
  | .saxZp z => [0x87, z]
  | .dey => [0x88]
  | .txa => [0x8A]
  | .aneImm v => [0x8B, v]
  | .styAbs a => [0x8C, lo a, hi a]
  | .staAbs a => [0x8D, lo a, hi a]
  | .stxAbs a => [0x8E, lo a, hi a]
  | .saxAbs a => [0x8F, lo a, hi a]
  | .bcc o => [0x90, o]
  | .staIzy z => [0x91, z]
  | .shaIzy z => [0x93, z]
  | .styZpx z => [0x94, z]
  | .staZpx z => [0x95, z]
  | .stxZpy z => [0x96, z]
  | .saxZpy z => [0x97, z]
  | .tya => [0x98]
  | .staAby a => [0x99, lo a, hi a]
  | .txs => [0x9A]
  | .tasAby a => [0x9B, lo a, hi a]
  | .shyAbx a => [0x9C, lo a, hi a]
  | .staAbx a => [0x9D, lo a, hi a]
  | .shxAby a => [0x9E, lo a, hi a]
  | .shaAby a => [0x9F, lo a, hi a]
  | .ldyImm v => [0xA0, v]
  | .ldaIzx z => [0xA1, z]
  | .ldxImm v => [0xA2, v]
  | .laxIzx z => [0xA3, z]
  | .ldyZp z => [0xA4, z]
  | .ldaZp z => [0xA5, z]
  | .ldxZp z => [0xA6, z]
  | .laxZp z => [0xA7, z]
  | .tay => [0xA8]
  | .ldaImm v => [0xA9, v]
  | .tax => [0xAA]
  | .lxaImm v => [0xAB, v]
  | .ldyAbs a => [0xAC, lo a, hi a]
  | .ldaAbs a => [0xAD, lo a, hi a]
  | .ldxAbs a => [0xAE, lo a, hi a]
  | .laxAbs a => [0xAF, lo a, hi a]
  | .bcs o => [0xB0, o]
  | .ldaIzy z => [0xB1, z]
  | .laxIzy z => [0xB3, z]
  | .ldyZpx z => [0xB4, z]
  | .ldaZpx z => [0xB5, z]
  | .ldxZpy z => [0xB6, z]
  | .laxZpy z => [0xB7, z]
  | .clv => [0xB8]
  | .ldaAby a => [0xB9, lo a, hi a]
  | .tsx => [0xBA]
  | .lasAby a => [0xBB, lo a, hi a]
  | .ldyAbx a => [0xBC, lo a, hi a]
  | .ldaAbx a => [0xBD, lo a, hi a]
  | .ldxAby a => [0xBE, lo a, hi a]
  | .laxAby a => [0xBF, lo a, hi a]
  | .cpyImm v => [0xC0, v]
  | .cmpIzx z => [0xC1, z]
  | .dcpIzx z => [0xC3, z]
  | .cpyZp z => [0xC4, z]
  | .cmpZp z => [0xC5, z]
  | .decZp z => [0xC6, z]
  | .dcpZp z => [0xC7, z]
  | .iny => [0xC8]
  | .cmpImm v => [0xC9, v]
  | .dex => [0xCA]
  | .sbxImm v => [0xCB, v]
  | .cpyAbs a => [0xCC, lo a, hi a]
  | .cmpAbs a => [0xCD, lo a, hi a]
  | .decAbs a => [0xCE, lo a, hi a]
  | .dcpAbs a => [0xCF, lo a, hi a]
  | .bne o => [0xD0, o]
  | .cmpIzy z => [0xD1, z]
  | .dcpIzy z => [0xD3, z]
  | .cmpZpx z => [0xD5, z]
  | .decZpx z => [0xD6, z]
  | .dcpZpx z => [0xD7, z]
  | .cld => [0xD8]
  | .cmpAby a => [0xD9, lo a, hi a]
  | .dcpAby a => [0xDB, lo a, hi a]
  | .cmpAbx a => [0xDD, lo a, hi a]
  | .decAbx a => [0xDE, lo a, hi a]
  | .dcpAbx a => [0xDF, lo a, hi a]
  | .cpxImm v => [0xE0, v]
  | .sbcIzx z => [0xE1, z]
  | .iscIzx z => [0xE3, z]
  | .cpxZp z => [0xE4, z]
  | .sbcZp z => [0xE5, z]
  | .incZp z => [0xE6, z]
  | .iscZp z => [0xE7, z]
  | .inx => [0xE8]
  | .sbcImm v => [0xE9, v]
  | .nop => [0xEA]
  | .usbcImm v => [0xEB, v]
  | .cpxAbs a => [0xEC, lo a, hi a]
  | .sbcAbs a => [0xED, lo a, hi a]
  | .incAbs a => [0xEE, lo a, hi a]
  | .iscAbs a => [0xEF, lo a, hi a]
  | .beq o => [0xF0, o]
  | .sbcIzy z => [0xF1, z]
  | .iscIzy z => [0xF3, z]
  | .sbcZpx z => [0xF5, z]
  | .incZpx z => [0xF6, z]
  | .iscZpx z => [0xF7, z]
  | .sed => [0xF8]
  | .sbcAby a => [0xF9, lo a, hi a]
  | .iscAby a => [0xFB, lo a, hi a]
  | .sbcAbx a => [0xFD, lo a, hi a]
  | .incAbx a => [0xFE, lo a, hi a]
  | .iscAbx a => [0xFF, lo a, hi a]

/-- The instruction's first byte. -/
def Instr.opcode (i : Instr) : Byte := (encode i).headD 0

/-- Byte `k` of a number whose bit 0 is the least significant bit of its first byte. -/
def byteOf (w k : Nat) : Byte := BitVec.ofNat 8 (w / 2 ^ (8 * k))

/-- The three bytes, in ascending addresses, of the table's word `w` of `nbits` bits: every bit above `nbits` is 0. -/
def tableBytes (nbits w : Nat) : List Byte :=
  [byteOf (w % 2 ^ nbits) 0, byteOf (w % 2 ^ nbits) 1, byteOf (w % 2 ^ nbits) 2]

/-- The instruction the decoder reads from a word numbered as opcode_table.json numbers it. -/
def decodeTableWord (nbits w : Nat) : Option Instr :=
  match decode (tableBytes nbits w) with
  | .ok (i, _) => some i
  | .error _ => none

end Sys2Proof
end

