-- ==== Sys2Proof/Config.lean ====
section
/-! DEFINITION. The hardware profile (00_scope.md R4, 10_state.md R42): what one machine of this hardware fixes, and
the free values the spec leaves open. A profile is plain data and a field of State, so that every claim is a claim
about every profile (log 2). -/

namespace Sys2Proof

/-- `illegal_opcode_policy` (R4, R97). -/
inductive Policy where
  | trap
  | emulate
  deriving DecidableEq, Repr

/-- `unstable_store_model` (R4, R340). -/
inductive StoreModel where
  | formula
  | any
  deriving DecidableEq, Repr

/-- `ppu_interrupt_input` (R4, R381): the CPU input the PPU's line drives. -/
inductive InterruptInput where
  | nmi
  | irq
  deriving DecidableEq, Repr

/-- The two chips whose registers the Bus can reach (20_memory.md R61 to R63, R68). -/
inductive Chip where
  | ppu
  | mapper
  deriving DecidableEq, Repr

/-- What an address resolves to (20_memory.md R61 to R64, 60_exceptions.md R375). -/
inductive TargetKind where
  /-- A RAM cell: read and written. -/
  | ram
  /-- A ROM cell: read; a write leaves it unchanged and is shown to the mapper (R63). -/
  | rom
  /-- A register of a chip, reached through its hooks (R62, R63); the registers listed are write-only (R64). -/
  | port (chip : Chip) (writeOnly : List Nat)
  /-- No device drives it: a read returns `bus_latch` and a write changes nothing (R64, R66). -/
  | undriven
  /-- Out of the mapper's range: an access is a BusFault (R375). -/
  | outOfRange
  deriving DecidableEq, Repr

/-- One entry of `mirroring_rules`: the addresses `first..last` repeat `period` cells of one kind (R65, R66). -/
structure Region where
  first  : Nat
  last   : Nat
  period : Nat
  kind   : TargetKind
  deriving DecidableEq, Repr

/-- The hardware profile: the parameters of R4 that are data. -/
structure Profile where
  policy     : Policy
  /-- `ppu_per_cpu_ratio` = ratioP / ratioQ PPU cycles in a CPU cycle (R456, 90_conflicts.md C1). -/
  ratioP     : Nat
  ratioQ     : Nat
  vecNmi     : Addr
  vecReset   : Addr
  vecIrq     : Addr
  /-- `mirroring_rules`, the address map. -/
  map        : List Region
  ppuInput   : InterruptInput
  /-- `irq_sources`: the devices that drive the IRQ line. -/
  irqSources : List Nat
  /-- `ane_magic`; none is "any value" (R338). -/
  aneMagic   : Option Byte
  /-- `lxa_magic`; none is "any value" (R339). -/
  lxaMagic   : Option Byte
  storeModel : StoreModel
  deriving DecidableEq, Repr

namespace Config

/-- FREE VALUES: the n-th byte the spec leaves open, taken where a chip's register answers a read (R62; log 7), where
`ane_magic` or `lxa_magic` is "any value" (R338, R339; log 10) and where `unstable_store_model = any` (R340; log 11).
It has no body: nothing can evaluate it. -/
opaque freeByte : Nat → Byte

/-- FREE VALUE: what the `peek` parameter answers for a chip's register (R83, D22; log 16), by the number of hook
calls made, the number of CPU cycles run and the address. -/
opaque peekPort : Nat → Nat → Addr → Byte

/-- The default `mirroring_rules` (R66): the NES CPU address map. The cartridge space is the mapper's; the default
takes it as ROM (log 3). -/
def defaultMap : List Region :=
  [ ⟨0x0000, 0x1FFF, 0x0800, .ram⟩,
    ⟨0x2000, 0x3FFF, 8, .port .ppu []⟩,
    ⟨0x4000, 0x4017, 0x18, .undriven⟩,
    ⟨0x4018, 0x401F, 8, .undriven⟩,
    ⟨0x4020, 0xFFFF, 0xBFE0, .rom⟩ ]

/-- The profile of State.reset: the defaults of R4, and DESIGN CHOICES for its OPEN parameters (log 3). -/
def defaultProfile : Profile where
  policy     := .emulate
  ratioP     := 3
  ratioQ     := 1
  vecNmi     := 0xFFFA
  vecReset   := 0xFFFC
  vecIrq     := 0xFFFE
  map        := defaultMap
  ppuInput   := .nmi
  irqSources := []
  aneMagic   := none
  lxaMagic   := none
  storeModel := .any

end Config
end Sys2Proof
end

