-- ==== Sys2Proof/Machine/Micro.lean ====
section
/-! DEFINITION. The micro-operations: each is ONE cycle of 40_sequencer.md, with its single bus access and the register
actions of that cycle (00_scope.md R10, R60, R120). What each does is in Machine/Ops.lean. -/

namespace Sys2Proof.Machine

/-- The index register of an addressing mode (R93). -/
inductive Index where
  | x
  | y
  deriving DecidableEq, Repr

/-- The operations of the read class: `op(M)` on the operand byte M (R96, R122). -/
inductive ReadOp where
  | lda | ldx | ldy | adc | sbc | and | ora | eor | cmp | cpx | cpy | bit
  | nop | lax | las | anc | alr | arr | sbx | usbc | ane | lxa
  deriving DecidableEq, Repr

/-- The values the write class stores (R96, R122). -/
inductive StoreOp where
  | sta | stx | sty | sax
  deriving DecidableEq, Repr

/-- The unstable stores (R340 to R344). -/
inductive UnstableOp where
  | sha | shx | shy | tas
  deriving DecidableEq, Repr

/-- The operations of the read-modify-write class (R96, R122). -/
inductive RmwOp where
  | asl | lsr | rol | ror | inc | dec | slo | rla | sre | rra | dcp | isc
  deriving DecidableEq, Repr

/-- The operations of the implied and accumulator class (R96, R124). -/
inductive ImpliedOp where
  | tax | tay | txa | tya | tsx | txs | inx | iny | dex | dey
  | aslA | lsrA | rolA | rorA
  | clc | sec | cli | sei | clv | cld | sed | nop
  deriving DecidableEq, Repr

/-- The branch conditions (R276 to R283). -/
inductive Cond where
  | pl | mi | vc | vs | cc | cs | ne | eq
  deriving DecidableEq, Repr

/-- One cycle of a sequence. -/
inductive MicroOp where
  /-- `R PC -> IR; PC++` (R121). -/
  | opcode
  /-- The opcode fetch of a JAM under `emulate`: as `opcode`, then `halted <- true` (R153). -/
  | opcodeJam
  /-- The opcode fetch of an illegal opcode under `trap` (R321). -/
  | opcodeTrap
  /-- `R PC -> M; PC++; op(M)`: the immediate operand (R125). -/
  | imm (op : ReadOp)
  /-- `R PC -> AD; PC++`: a zero-page operand or the low byte of an address (R126, R132). -/
  | argLo
  /-- `R PC -> hi(AD); PC++`: the high byte of an address (R132). -/
  | argHi
  /-- `R PC -> hi; PC++; AD <- {hi, u8(lo + index)}; crossed` (R135). -/
  | argHiIdx (r : Index)
  /-- `R PC -> off; PC++`: the offset of a branch (R144 T2). -/
  | argOff
  /-- `R PC -> hi; PC <- {hi, lo}` (R145 T3, R147 T6). -/
  | argJump
  /-- `R PC; PC++`: the signature byte of BRK (R152 T2). -/
  | argSig
  /-- `R PC` (dummy) (R148 T2, R149 T2, R150 T2, R151 T2, R390 T2, R430 T1, T2). -/
  | dummyPC
  /-- `R PC` (dummy); op (R124 T2). -/
  | implied (op : ImpliedOp)
  /-- `R {$00, zp}` (dummy); AD <- {$00, u8(zp + index)} (R129 T3, R138 T3). -/
  | idxZp (r : Index)
  /-- `R AD -> DL`: a pointer's low byte, or the operand of a read-modify-write (R138 T4, R128 T3). -/
  | readDL
  /-- `R {hi(AD), u8(lo(AD) + 1)} -> hi; AD <- {hi, DL}`: a pointer's high byte (R138 T5). -/
  | ptrHi
  /-- The pointer's high byte in (zp),Y: AD <- {hi, u8(DL + Y)}; crossed (R141 T4). -/
  | ptrHiY
  /-- The pointer's high byte in JMP (abs): PC <- {hi, DL} (R146 T5). -/
  | ptrJump
  /-- `R AD` (dummy); AD <- u16(AD + $0100): made only when the page is crossed (R135 T4, R141 T5). -/
  | fixRead
  /-- `R AD` (dummy); if crossed AD <- u16(AD + $0100): always made (R136 T4, R142 T5). -/
  | fixWrite
  /-- `R AD -> M; op(M)`: the last cycle of the read class. -/
  | read (op : ReadOp)
  /-- `W AD <- DL` (dummy): the write-back of the read-modify-write class. -/
  | writeBack
  /-- `W AD <- op(M)`: the last cycle of the read-modify-write class. -/
  | modify (op : RmwOp)
  /-- `W AD <- value`: the last cycle of the write class. -/
  | write (op : StoreOp)
  /-- The last cycle of an unstable store (R340). -/
  | writeUnstable (op : UnstableOp)
  /-- `R PC` (dummy); PC <- {hi(PC), lo(t)}; crossed: made only when the branch is taken (R144 T3). -/
  | branchTake (c : Cond)
  /-- `R PC` (dummy); PC <- t: made only when the branch is taken to another page (R144 T4). -/
  | branchFix (c : Cond)
  /-- `R {$01, S}` (dummy) (R147 T3). -/
  | stackDummy
  /-- `R {$01, S}` (dummy); S <- u8(S + 1) (R148 T3, R149 T3, R151 T3). -/
  | stackInc
  /-- `W {$01, S} <- A; S <- u8(S - 1)` (R150 T3 of PHA). -/
  | pushA
  /-- `W {$01, S} <- Pbyte(1); S <- u8(S - 1)` (R150 T3 of PHP). -/
  | pushPB
  /-- `W {$01, S} <- hi(PC); S <- u8(S - 1)` (R147 T4, R390 T3). -/
  | pushHi
  /-- `W {$01, S} <- lo(PC); S <- u8(S - 1)` (R147 T5). -/
  | pushLo
  /-- As `pushLo`; at the end of the cycle the vector is chosen (R390 T4, R388). -/
  | pushLoVec
  /-- `W {$01, S} <- Pbyte(bflag); S <- u8(S - 1)` (R390 T5). -/
  | pushP
  /-- `R {$01, S} -> v; A <- v; setNZ(v)` (R151 T4 of PLA). -/
  | pullA
  /-- `R {$01, S} -> v; P <- v` (R151 T4 of PLP). -/
  | pullP
  /-- `R {$01, S} -> v; P <- v; S <- u8(S + 1)` (R149 T4). -/
  | pullPInc
  /-- `R {$01, S} -> lo; S <- u8(S + 1)` (R148 T4, R149 T5). -/
  | pullLo
  /-- `R {$01, S} -> hi; PC <- {hi, lo}` (R148 T5, R149 T6). -/
  | pullHi
  /-- `R PC` (dummy); PC++ (R148 T6). -/
  | incPC
  /-- `R PC` (dummy); int_next <- none (R390 T1). -/
  | entryStart
  /-- `R vec -> lo; P.I <- 1` (R390 T6, R430 T6). -/
  | vecLo
  /-- `R u16(vec + 1) -> hi; PC <- {hi, lo}` (R390 T7, R430 T7). -/
  | vecHi
  /-- `R {$01, S}` (dummy); S <- u8(S - 1) (R430 T3 to T5). -/
  | stackDec
  deriving DecidableEq, Repr

end Sys2Proof.Machine
end

