-- ==== Sys2Proof/Machine/State.lean ====
section
/-! DEFINITION. The machine's state: every piece of state of 10_state.md, the hardware profile (log 2), the inputs
still to come (log 8, log 20) and the model's own counter of free values (log 22). -/

namespace Sys2Proof.Machine

/-- `seq` (R36): which sequence runs; fetch is an instruction boundary. -/
inductive Seq where
  | fetch
  | instr
  | interrupt
  | reset
  | halted
  deriving DecidableEq, Repr

/-- `int_next` (R37): the result of the last poll. -/
inductive IntNext where
  | none
  | nmi
  | irq
  deriving DecidableEq, Repr

/-- `run_state` (R40). -/
inductive RunState where
  | running
  | paused
  | steppingInstruction
  | steppingFrame
  deriving DecidableEq, Repr

/-- `stop_reason` (R47). -/
inductive StopReason where
  | none
  | command
  | breakpoint (id : Nat)
  | stepDone
  | frameDone
  | fault
  deriving DecidableEq, Repr

/-- The three kinds of error (R370). -/
inductive ErrorKind where
  | hardwareFault
  | configurationError
  | callerMisuse
  deriving DecidableEq, Repr

/-- The cause codes by name (R378). -/
inductive Cause where
  | illegalOpcode
  | busFault
  | badRatio
  | badPolicy
  | badMirroring
  | badVectors
  | notPaused
  | badBreakpointId
  deriving DecidableEq, Repr

/-- The fault record (R374). -/
structure FaultRecord where
  kind    : ErrorKind
  code    : Nat
  address : Addr
  opcode  : Byte
  cycle   : Nat
  deriving DecidableEq, Repr

/-- A breakpoint (R41, R411); `condition` numbers a `breakpoint_condition` (log 17). -/
structure Breakpoint where
  id        : Nat
  address   : Addr
  enabled   : Bool
  condition : Option Nat
  deriving DecidableEq, Repr

/-- The register snapshot of `get_registers` and the argument of `set_registers` (R43, R409); `p` has the byte layout
of R28. -/
structure Registers where
  a  : Byte
  x  : Byte
  y  : Byte
  s  : Byte
  pc : Addr
  p  : Byte
  deriving DecidableEq, Repr

/-- The Decoded Instruction of the Disassembler (R101). -/
structure Decoded where
  address  : Addr
  length   : Nat
  mnemonic : List Char
  operand  : List Char
  mode     : Mode
  deriving DecidableEq, Repr

/-- The value of `inspect(window)` (R408). -/
structure Inspection where
  registers  : Registers
  memory     : List Byte
  decoded    : Decoded
  runState   : RunState
  stopReason : StopReason
  fault      : Option FaultRecord
  halted     : Bool
  nmiPending : Bool
  intNext    : IntNext
  deriving DecidableEq, Repr

/-- The debugger's commands (R401 to R411, R432). -/
inductive Command where
  | continueExecution
  | pause
  | stepInstruction
  | stepFrame
  | reset
  | setRegisters (r : Registers)
  | write (address : Addr) (value : Byte)
  | addBreakpoint (address : Addr) (condition : Option Nat)
  | removeBreakpoint (id : Nat)
  | inspect (start : Addr) (length : Nat)
  | memoryWindow (start : Addr) (length : Nat)
  | disassembly (start : Addr) (count : Nat)
  deriving DecidableEq, Repr

/-- What the outside does in one CPU cycle (log 8): how many `step_cycle()` calls are stalled before it (R85), and, at
its end, the PPU's interrupt line, the devices asserting IRQ and whether the PPU's frame event fired (R381, R406). -/
structure CycleInput where
  stall        : Nat
  ppuLine      : Bool
  irqAsserting : List Nat
  frame        : Bool
  deriving DecidableEq, Repr

/-- One call of a chip's register hook (R62, R63, R68): the register, and the byte for a write. -/
structure PortEvent where
  chip : Chip
  reg  : Nat
  data : Option Byte
  deriving DecidableEq, Repr

/-- The state of the machine. -/
structure State where
  /-- The accumulator A (R21). -/
  a : Byte
  /-- The index register X (R22). -/
  x : Byte
  /-- The index register Y (R23). -/
  y : Byte
  /-- The stack pointer S (R24). -/
  sp : Byte
  /-- The program counter PC (R25). -/
  pc : Addr
  /-- P.N (R34). -/
  fN : Bool
  /-- P.V (R33). -/
  fV : Bool
  /-- P.D (R32). -/
  fD : Bool
  /-- P.I (R31). -/
  fI : Bool
  /-- P.Z (R30). -/
  fZ : Bool
  /-- P.C (R29). -/
  fC : Bool
  /-- Which sequence runs (R36). -/
  seq : Seq
  /-- IR: the opcode fetched in T1 (R36). -/
  ir : Byte
  /-- T: the cycle within the sequence (R36). -/
  t : Nat
  /-- AD: the address latch (R36). -/
  ad : Addr
  /-- DL: the data latch (R36). -/
  dl : Byte
  /-- An index or branch addition carried into the high byte (R36). -/
  crossed : Bool
  /-- The vector address chosen (R36, R392). -/
  vec : Addr
  /-- The B bit the interrupt sequence pushes (R36). -/
  bflag : Bool
  /-- The micro-operations still queued of the running sequence (40_sequencer.md, R121); empty at a boundary. -/
  queue : List MicroOp
  /-- The NMI input as sampled at the end of the previous cycle (R37). -/
  nmiPrev : Bool
  /-- An NMI edge was detected and not yet serviced (R37). -/
  nmiPending : Bool
  /-- The IRQ input as sampled at the end of the previous cycle (R37). -/
  irqSampled : Bool
  /-- The result of the last poll (R37). -/
  intNext : IntNext
  /-- The last byte transferred on the CPU data bus (R38). -/
  busLatch : Byte
  /-- A JAM has executed under `emulate` (R39). -/
  halted : Bool
  /-- The record of the last HardwareFault (R39). -/
  fault : Option FaultRecord
  /-- The Run State (R40). -/
  runState : RunState
  /-- The breakpoints, in id order (R41, R404). -/
  breakpoints : List Breakpoint
  /-- The next breakpoint id never used before (R411; log 39). -/
  nextBreakpointId : Nat
  /-- A pause command is waiting for a boundary (R47). -/
  pauseRequested : Bool
  /-- The frame event fired since the step-frame command began (R47). -/
  frameSeen : Bool
  /-- Why the last run or step ended (R47). -/
  stopReason : StopReason
  /-- The fractional PPU cycle carried (R46). -/
  ppuAcc : Nat
  /-- `cpu_cycle_count` (R46). -/
  cycles : Nat
  /-- The PPU steps made (R413). -/
  ppuSteps : Nat
  /-- The PPU's `interrupt_pending()` (R380, R399). -/
  ppuLine : Bool
  /-- The devices asserting IRQ (R381). -/
  irqAsserting : List Nat
  /-- The cells of RAM and ROM, in canonical form (R61; log 6). -/
  mem : List Host.Cell
  /-- The hardware profile (R42; log 2). -/
  profile : Profile
  /-- What the outside does in the cycles still to come (log 8). -/
  inputs : List CycleInput
  /-- What the host does in the steps still to come: a command, or a tick (log 20). -/
  commands : List (Option Command)
  /-- The register-hook calls made, newest first (log 27). -/
  portLog : List PortEvent
  /-- The index of the next free value (log 22). -/
  freeIdx : Nat
  deriving DecidableEq, Repr

/-- Why a step stops. No step of this model does: every error of the spec is a reported state (R370), and
`undecodable` is never raised, since every opcode decodes (R94). -/
inductive Fault where
  /-- Raised by the fetch if the decoder refused the bytes at PC; safe, and unreachable: three bytes always decode. -/
  | undecodable (opcode : Byte)
  deriving DecidableEq, Repr

/-- An instruction without a meaning. -/
inductive Refusal where
  /-- Raised by an arm of exec whose instruction has no meaning yet; safe. No arm of this model is one. -/
  | notModelled (mnemonic : String)
  deriving DecidableEq, Repr

/-- What a meaning and a step answer. -/
abbrev Answer := Host.Outcome State Fault Refusal

/-- The power-on state (R44, R435), with the OPEN values of `power_on_state` at the values R45 reports, a DESIGN
CHOICE (log 4), the other OPEN values at that of log 5,
the default profile (log 3) and nothing loaded. The reset sequence of R430 takes it to State.reset. -/
def State.powerOn : State where
  a := 0
  x := 0
  y := 0
  sp := 0
  pc := 0
  fN := false
  fV := false
  fD := false
  fI := true
  fZ := false
  fC := false
  seq := .reset
  ir := 0
  t := 1
  ad := 0
  dl := 0
  crossed := false
  vec := 0
  bflag := false
  queue := []
  nmiPrev := false
  nmiPending := false
  irqSampled := false
  intNext := .none
  busLatch := 0
  halted := false
  fault := none
  runState := .paused
  breakpoints := []
  nextBreakpointId := 1
  pauseRequested := false
  frameSeen := false
  stopReason := .none
  ppuAcc := 0
  cycles := 0
  ppuSteps := 0
  ppuLine := false
  irqAsserting := []
  mem := []
  profile := Config.defaultProfile
  inputs := []
  commands := []
  portLog := []
  freeIdx := 0

/-- The machine right after the power-on reset sequence (R44, R430, R431): S has dropped by 3, I is 1, PC is the word
at the reset vector (0, since nothing is loaded), 7 cycles and 21 PPU steps have run, and the machine is Paused at a
boundary. It is the result of the reset sequence of R430 on State.powerOn, as an obligation states. -/
def State.reset : State :=
  { State.powerOn with
    sp := 0xFD
    fI := true
    seq := .fetch
    t := 7
    vec := 0xFFFC
    cycles := 7
    ppuSteps := 21 }

end Sys2Proof.Machine
end

