-- ==== Sys2Proof/Machine/Flags.lean ====
section
/-! DEFINITION. The status flags: the byte P makes and is loaded from (10_state.md R26 to R28), setNZ (00_scope.md R9)
and the ALU's results with their carry and overflow (43_alu.md R220 to R223). -/

namespace Sys2Proof.Machine

/-- A flag as the bit of a byte. -/
def bitByte (c : Bool) : Byte := if c then 1 else 0

/-- The result is zero: the Z flag's rule (R9). -/
def isZero (r : Byte) : Bool := decide (r = 0)

/-- `setNZ(v)` (R9). -/
def setNZ (r : Byte) (s : State) : State :=
  { s with fN := r.msb, fZ := isZero r }

/-- `Pbyte(b) = {N, V, 1, b, D, I, Z, C}` (R27). -/
def pByte (b : Bool) (s : State) : Byte :=
  BitVec.ofBool s.fN ++ BitVec.ofBool s.fV ++ 1#1 ++ BitVec.ofBool b ++
    BitVec.ofBool s.fD ++ BitVec.ofBool s.fI ++ BitVec.ofBool s.fZ ++ BitVec.ofBool s.fC

/-- P loaded from a byte: bits 5 and 4 are discarded (R28). -/
def loadP (v : Byte) (s : State) : State :=
  { s with
    fN := v.getLsbD 7
    fV := v.getLsbD 6
    fD := v.getLsbD 3
    fI := v.getLsbD 2
    fZ := v.getLsbD 1
    fC := v.getLsbD 0 }

/-- `r := a + m + c` of R220, a natural number. -/
def adcSum (a m : Byte) (c : Bool) : Nat := a.toNat + m.toNat + c.toNat

/-- `res := u8(r)` of R220. -/
def adcResult (a m : Byte) (c : Bool) : Byte := BitVec.ofNat 8 (adcSum a m c)

/-- `C := (r > 255)` of R220. -/
def adcCarry (a m : Byte) (c : Bool) : Bool := decide (255 < adcSum a m c)

/-- `V := (((a xor r) and (m xor r) and $80) != 0)` of R220. -/
def adcOverflow (a m : Byte) (c : Bool) : Bool :=
  decide ((a ^^^ adcResult a m c) &&& (m ^^^ adcResult a m c) &&& 0x80 ≠ 0)

/-- `A <- adc(A, m, C)` with its flags (R220); P.D is not read (R32). -/
def adcIntoA (m : Byte) (s : State) : State :=
  { s with
    a  := adcResult s.a m s.fC
    fN := (adcResult s.a m s.fC).msb
    fV := adcOverflow s.a m s.fC
    fZ := isZero (adcResult s.a m s.fC)
    fC := adcCarry s.a m s.fC }

/-- `A <- sbc(A, m, C)`: adc of the complement (R221). -/
def sbcIntoA (m : Byte) (s : State) : State := adcIntoA (m ^^^ 0xFF) s

/-- `compare(reg, m)` (R222). -/
def compare (reg m : Byte) (s : State) : State :=
  { s with
    fC := decide (m.toNat ≤ reg.toNat)
    fZ := decide (reg = m)
    fN := (reg - m).msb }

/-- `asl(v)` (R223). -/
def aslResult (v : Byte) : Byte := v <<< 1

/-- `lsr(v)` (R223). -/
def lsrResult (v : Byte) : Byte := v >>> 1

/-- `rol(v)` with the old carry (R223). -/
def rolResult (v : Byte) (c : Bool) : Byte := (v <<< 1) ||| bitByte c

/-- `ror(v)` with the old carry (R223). -/
def rorResult (v : Byte) (c : Bool) : Byte := (v >>> 1) ||| (bitByte c <<< 7)

/-- N and Z of a shift's result, and C from the bit shifted out (R223). -/
def setShift (r : Byte) (out : Bool) (s : State) : State :=
  { s with fN := r.msb, fZ := isZero r, fC := out }

end Sys2Proof.Machine
end

