-- ==== Sys2Proof/Machine/Alu.lean ====
section
/-! DEFINITION. What each mnemonic does with its operand byte, apart from any addressing mode: the operations of the
read class, the values the write class stores, the operations of the read-modify-write class, and the implied and
accumulator operations (41, 43, 44, 45). The cycles that apply them are in Machine/Ops.lean. -/

namespace Sys2Proof.Machine

/-! ### The read class: `op(M)` -/

/-- LDA (R170). -/
def opLda (m : Byte) (s : State) : State := setNZ m { s with a := m }

/-- LDX (R171). -/
def opLdx (m : Byte) (s : State) : State := setNZ m { s with x := m }

/-- LDY (R172). -/
def opLdy (m : Byte) (s : State) : State := setNZ m { s with y := m }

/-- ADC (R224). -/
def opAdc (m : Byte) (s : State) : State := adcIntoA m s

/-- SBC (R225). -/
def opSbc (m : Byte) (s : State) : State := sbcIntoA m s

/-- AND (R226). -/
def opAnd (m : Byte) (s : State) : State := setNZ (s.a &&& m) { s with a := s.a &&& m }

/-- ORA (R227). -/
def opOra (m : Byte) (s : State) : State := setNZ (s.a ||| m) { s with a := s.a ||| m }

/-- EOR (R228). -/
def opEor (m : Byte) (s : State) : State := setNZ (s.a ^^^ m) { s with a := s.a ^^^ m }

/-- CMP (R229). -/
def opCmp (m : Byte) (s : State) : State := compare s.a m s

/-- CPX (R230). -/
def opCpx (m : Byte) (s : State) : State := compare s.x m s

/-- CPY (R231). -/
def opCpy (m : Byte) (s : State) : State := compare s.y m s

/-- BIT (R232): N and V come from M, Z from `A and M`. -/
def opBit (m : Byte) (s : State) : State :=
  { s with fZ := isZero (s.a &&& m), fN := m.getLsbD 7, fV := m.getLsbD 6 }

/-- The undocumented NOPs that read (R323): M is discarded. -/
def opNop (_ : Byte) (s : State) : State := s

/-- LAX (R329). -/
def opLax (m : Byte) (s : State) : State := setNZ m { s with a := m, x := m }

/-- LAS (R337). -/
def opLas (m : Byte) (s : State) : State :=
  setNZ (m &&& s.sp) { s with a := m &&& s.sp, x := m &&& s.sp, sp := m &&& s.sp }

/-- ANC (R332): C is the new N. -/
def opAnc (m : Byte) (s : State) : State :=
  setShift (s.a &&& m) (s.a &&& m).msb { s with a := s.a &&& m }

/-- ALR (R333). -/
def opAlr (m : Byte) (s : State) : State :=
  setShift (lsrResult (s.a &&& m)) ((s.a &&& m).getLsbD 0) { s with a := lsrResult (s.a &&& m) }

/-- The value ARR leaves in A (R334). -/
def arrResult (m : Byte) (s : State) : Byte := rorResult (s.a &&& m) s.fC

/-- ARR (R334): C is bit 6 of the result, V is bit 6 xor bit 5. -/
def opArr (m : Byte) (s : State) : State :=
  { s with
    a  := arrResult m s
    fN := (arrResult m s).msb
    fZ := isZero (arrResult m s)
    fC := (arrResult m s).getLsbD 6
    fV := xor ((arrResult m s).getLsbD 6) ((arrResult m s).getLsbD 5) }

/-- SBX (R335): X is (A and X) minus M, the old C is not used. -/
def opSbx (m : Byte) (s : State) : State :=
  { s with
    x  := (s.a &&& s.x) - m
    fN := ((s.a &&& s.x) - m).msb
    fZ := isZero ((s.a &&& s.x) - m)
    fC := decide (m.toNat ≤ (s.a &&& s.x).toNat) }

/-- USBC (R336): as SBC. -/
def opUsbc (m : Byte) (s : State) : State := sbcIntoA m s

/-- The counter of free values after a magic constant was used: it moves only where the constant is "any value". -/
def freeIdxAfter (magic : Option Byte) (s : State) : Nat :=
  if magic.isNone then s.freeIdx + 1 else s.freeIdx

/-- `ane_magic`, or a free value where it is "any value" (R338; log 10). -/
def aneMagic (s : State) : Byte := s.profile.aneMagic.getD (Config.freeByte s.freeIdx)

/-- ANE (R338). -/
def opAne (m : Byte) (s : State) : State :=
  setNZ ((s.a ||| aneMagic s) &&& s.x &&& m)
    { s with a := (s.a ||| aneMagic s) &&& s.x &&& m, freeIdx := freeIdxAfter s.profile.aneMagic s }

/-- `lxa_magic`, or a free value where it is "any value" (R339; log 10). -/
def lxaMagic (s : State) : Byte := s.profile.lxaMagic.getD (Config.freeByte s.freeIdx)

/-- LXA (R339). -/
def opLxa (m : Byte) (s : State) : State :=
  setNZ ((s.a ||| lxaMagic s) &&& m)
    { s with
      a := (s.a ||| lxaMagic s) &&& m
      x := (s.a ||| lxaMagic s) &&& m
      freeIdx := freeIdxAfter s.profile.lxaMagic s }

/-- `op(M)` of a read instruction (R122). -/
def ReadOp.apply (op : ReadOp) (m : Byte) (s : State) : State :=
  match op with
  | .lda => opLda m s
  | .ldx => opLdx m s
  | .ldy => opLdy m s
  | .adc => opAdc m s
  | .sbc => opSbc m s
  | .and => opAnd m s
  | .ora => opOra m s
  | .eor => opEor m s
  | .cmp => opCmp m s
  | .cpx => opCpx m s
  | .cpy => opCpy m s
  | .bit => opBit m s
  | .nop => opNop m s
  | .lax => opLax m s
  | .las => opLas m s
  | .anc => opAnc m s
  | .alr => opAlr m s
  | .arr => opArr m s
  | .sbx => opSbx m s
  | .usbc => opUsbc m s
  | .ane => opAne m s
  | .lxa => opLxa m s

/-! ### The write class: the value stored -/

/-- The value of STA, STX, STY (R173 to R175) and SAX (R328). -/
def StoreOp.value (op : StoreOp) (s : State) : Byte :=
  match op with
  | .sta => s.a
  | .stx => s.x
  | .sty => s.y
  | .sax => s.a &&& s.x

/-! ### The unstable stores -/

/-- `reg_value` of R341 to R344; TAS takes the S it sets. -/
def UnstableOp.reg (op : UnstableOp) (s : State) : Byte :=
  match op with
  | .sha => s.a &&& s.x
  | .shx => s.x
  | .shy => s.y
  | .tas => s.a &&& s.x

/-- The byte an unstable store writes (R340): `reg_value and u8(H + 1)`, H the high byte of the base address (latched in
DL), or a free value under `any` (log 11). -/
def UnstableOp.value (op : UnstableOp) (s : State) : Byte :=
  match s.profile.storeModel with
  | .formula => op.reg s &&& (s.dl + 1)
  | .any => Config.freeByte s.freeIdx

/-- The address an unstable store writes (R340): its high byte is the value where the page was crossed, or a free value
under `any` (log 11). -/
def UnstableOp.address (op : UnstableOp) (s : State) : Addr :=
  match s.profile.storeModel with
  | .formula => if s.crossed then join (op.value s) (lo s.ad) else s.ad
  | .any => join (Config.freeByte (s.freeIdx + 1)) (lo s.ad)

/-- The registers after an unstable store: TAS sets S to `A and X` (R344); the counter moves past the two free values of
`any`. -/
def UnstableOp.finish (op : UnstableOp) (s : State) : State :=
  { s with
    sp := match op with
      | .tas => s.a &&& s.x
      | .sha | .shx | .shy => s.sp
    ad := op.address s
    freeIdx := match s.profile.storeModel with
      | .formula => s.freeIdx
      | .any => s.freeIdx + 2 }

/-! ### The read-modify-write class -/

/-- The byte written back, from the operand M (R223, R233, R234, R239 to R242, R324 to R331). -/
def RmwOp.result (op : RmwOp) (m : Byte) (s : State) : Byte :=
  match op with
  | .asl | .slo => aslResult m
  | .lsr | .sre => lsrResult m
  | .rol | .rla => rolResult m s.fC
  | .ror | .rra => rorResult m s.fC
  | .inc | .isc => m + 1
  | .dec | .dcp => m - 1

/-- ASL on a byte: the flags (R239). -/
def opAsl (m : Byte) (s : State) : State := setShift (aslResult m) m.msb s

/-- LSR on a byte: the flags (R240). -/
def opLsr (m : Byte) (s : State) : State := setShift (lsrResult m) (m.getLsbD 0) s

/-- ROL on a byte: the flags (R241). -/
def opRol (m : Byte) (s : State) : State := setShift (rolResult m s.fC) m.msb s

/-- ROR on a byte: the flags (R242). -/
def opRor (m : Byte) (s : State) : State := setShift (rorResult m s.fC) (m.getLsbD 0) s

/-- INC: the flags (R233). -/
def opInc (m : Byte) (s : State) : State := setNZ (m + 1) s

/-- DEC: the flags (R234). -/
def opDec (m : Byte) (s : State) : State := setNZ (m - 1) s

/-- SLO: shift left, then or into A (R324). -/
def opSlo (m : Byte) (s : State) : State :=
  setShift (s.a ||| aslResult m) m.msb { s with a := s.a ||| aslResult m }

/-- RLA: rotate left, then and into A (R325). -/
def opRla (m : Byte) (s : State) : State :=
  setShift (s.a &&& rolResult m s.fC) m.msb { s with a := s.a &&& rolResult m s.fC }

/-- SRE: shift right, then exclusive or into A (R326). -/
def opSre (m : Byte) (s : State) : State :=
  setShift (s.a ^^^ lsrResult m) (m.getLsbD 0) { s with a := s.a ^^^ lsrResult m }

/-- RRA: rotate right, then add with the carry just produced (R327). -/
def opRra (m : Byte) (s : State) : State :=
  adcIntoA (rorResult m s.fC) { s with fC := m.getLsbD 0 }

/-- DCP: decrement, then compare A (R330). -/
def opDcp (m : Byte) (s : State) : State := compare s.a (m - 1) s

/-- ISC: increment, then subtract from A (R331). -/
def opIsc (m : Byte) (s : State) : State := sbcIntoA (m + 1) s

/-- The flags and registers of a read-modify-write instruction with operand M (R122). -/
def RmwOp.apply (op : RmwOp) (m : Byte) (s : State) : State :=
  match op with
  | .asl => opAsl m s
  | .lsr => opLsr m s
  | .rol => opRol m s
  | .ror => opRor m s
  | .inc => opInc m s
  | .dec => opDec m s
  | .slo => opSlo m s
  | .rla => opRla m s
  | .sre => opSre m s
  | .rra => opRra m s
  | .dcp => opDcp m s
  | .isc => opIsc m s

/-! ### The implied and accumulator class -/

/-- TAX (R176). -/
def opTax (s : State) : State := setNZ s.a { s with x := s.a }

/-- TAY (R177). -/
def opTay (s : State) : State := setNZ s.a { s with y := s.a }

/-- TXA (R178). -/
def opTxa (s : State) : State := setNZ s.x { s with a := s.x }

/-- TYA (R179). -/
def opTya (s : State) : State := setNZ s.y { s with a := s.y }

/-- TSX (R180). -/
def opTsx (s : State) : State := setNZ s.sp { s with x := s.sp }

/-- TXS (R181): the one transfer that writes no flag. -/
def opTxs (s : State) : State := { s with sp := s.x }

/-- INX (R235). -/
def opInx (s : State) : State := setNZ (s.x + 1) { s with x := s.x + 1 }

/-- INY (R236). -/
def opIny (s : State) : State := setNZ (s.y + 1) { s with y := s.y + 1 }

/-- DEX (R237). -/
def opDex (s : State) : State := setNZ (s.x - 1) { s with x := s.x - 1 }

/-- DEY (R238). -/
def opDey (s : State) : State := setNZ (s.y - 1) { s with y := s.y - 1 }

/-- ASL A (R239). -/
def opAslA (s : State) : State := setShift (aslResult s.a) s.a.msb { s with a := aslResult s.a }

/-- LSR A (R240). -/
def opLsrA (s : State) : State := setShift (lsrResult s.a) (s.a.getLsbD 0) { s with a := lsrResult s.a }

/-- ROL A (R241). -/
def opRolA (s : State) : State := setShift (rolResult s.a s.fC) s.a.msb { s with a := rolResult s.a s.fC }

/-- ROR A (R242). -/
def opRorA (s : State) : State :=
  setShift (rorResult s.a s.fC) (s.a.getLsbD 0) { s with a := rorResult s.a s.fC }

/-- An implied or accumulator operation (R124). -/
def ImpliedOp.apply (op : ImpliedOp) (s : State) : State :=
  match op with
  | .tax => opTax s
  | .tay => opTay s
  | .txa => opTxa s
  | .tya => opTya s
  | .tsx => opTsx s
  | .txs => opTxs s
  | .inx => opInx s
  | .iny => opIny s
  | .dex => opDex s
  | .dey => opDey s
  | .aslA => opAslA s
  | .lsrA => opLsrA s
  | .rolA => opRolA s
  | .rorA => opRorA s
  | .clc => { s with fC := false }
  | .sec => { s with fC := true }
  | .cli => { s with fI := false }
  | .sei => { s with fI := true }
  | .clv => { s with fV := false }
  | .cld => { s with fD := false }
  | .sed => { s with fD := true }
  | .nop => s

/-! ### The branch conditions -/

/-- `cond(P)` of the eight branches (R276 to R283). -/
def Cond.holds (c : Cond) (s : State) : Bool :=
  match c with
  | .pl => !s.fN
  | .mi => s.fN
  | .vc => !s.fV
  | .vs => s.fV
  | .cc => !s.fC
  | .cs => s.fC
  | .ne => !s.fZ
  | .eq => s.fZ

end Sys2Proof.Machine
end

