-- ==== Sys2Proof/Machine/Ops.lean ====
section
/-! DEFINITION. The named operations over memory, the Bus and the clock; one cycle of the sequencer; taking an interrupt
and returning from one; the reset sequence; the fetch of an instruction's bytes. -/

namespace Sys2Proof.Machine

/-! ### Memory: the cells of RAM and ROM -/

namespace Memory

/-- What an unlisted cell reads as (log 6). -/
def unlisted : Byte := 0

/-- The byte of a cell. -/
def read : List Host.Cell → Nat → Byte
  | [], _ => unlisted
  | (k, v) :: m, a => if k = a then v else read m a

/-- Stores a byte, keeping the canonical form: a cell that reads as an unlisted one is not listed. -/
def write : List Host.Cell → Nat → Byte → List Host.Cell
  | [], a, v => if v = unlisted then [] else [(a, v)]
  | (k, w) :: m, a, v =>
    if a < k then (if v = unlisted then (k, w) :: m else (a, v) :: (k, w) :: m)
    else if a = k then (if v = unlisted then m else (a, v) :: m)
    else (k, w) :: write m a v

/-- The cells from a bound on: strictly rising addresses, none listed that reads as an unlisted one. -/
def wfFrom : Nat → List Host.Cell → Bool
  | _, [] => true
  | b, (k, v) :: m => decide (b ≤ k) && decide (v ≠ unlisted) && wfFrom (k + 1) m

/-- The canonical form of a memory. -/
def wf (m : List Host.Cell) : Bool := wfFrom 0 m

end Memory

/-! ### The Bus: address decoding, reads and writes -/

/-- What an address resolves to: the kind of its entry, the cell all its mirrors share, and its offset in the entry
(R65, R68). -/
structure Target where
  kind   : TargetKind
  cell   : Nat
  offset : Nat
  deriving DecidableEq, Repr

/-- The address lies in the entry. -/
def Region.holds (r : Region) (a : Addr) : Bool :=
  decide (r.first ≤ a.toNat) && decide (a.toNat ≤ r.last)

/-- The address decoder: a pure function of the address and the map (R61, R65, R66). -/
def resolve (map : List Region) (a : Addr) : Target :=
  match map.find? (fun r => Region.holds r a) with
  | some r => ⟨r.kind, r.first + (a.toNat - r.first) % r.period, (a.toNat - r.first) % r.period⟩
  | none => ⟨.undriven, a.toNat, 0⟩

/-- The address's target in this machine's map. -/
def target (s : State) (a : Addr) : Target := resolve s.profile.map a

/-- The byte a bus read returns (R62, R64, R375): a stored byte, a register's answer (a free value, log 7), or
`bus_latch`. -/
def busValue (a : Addr) (s : State) : Byte :=
  match (target s a).kind with
  | .ram | .rom => Memory.read s.mem (target s a).cell
  | .port _ writeOnly =>
    if writeOnly.contains (target s a).offset then s.busLatch else Config.freeByte s.freeIdx
  | .undriven | .outOfRange => s.busLatch

/-- The free values a read uses: one where a register answers it. -/
def freeUsed (t : Target) : Nat :=
  match t.kind with
  | .port _ writeOnly => if writeOnly.contains t.offset then 0 else 1
  | .ram | .rom | .undriven | .outOfRange => 0

/-- The hook call a read makes (R62, R68). -/
def readEvents (t : Target) : List PortEvent :=
  match t.kind with
  | .port chip _ => [⟨chip, t.offset, none⟩]
  | .ram | .rom | .undriven | .outOfRange => []

/-- The hook call a write makes: of the register written, or of the mapper for a ROM cell, by its address (R63). -/
def writeEvents (t : Target) (v : Byte) : List PortEvent :=
  match t.kind with
  | .port chip _ => [⟨chip, t.offset, some v⟩]
  | .rom => [⟨.mapper, t.cell, some v⟩]
  | .ram | .undriven | .outOfRange => []

/-- The cells after a write: only a RAM cell changes (R63, R375). -/
def memAfterWrite (t : Target) (v : Byte) (m : List Host.Cell) : List Host.Cell :=
  match t.kind with
  | .ram => Memory.write m t.cell v
  | .rom | .port _ _ | .undriven | .outOfRange => m

/-- The numeric codes of R378. -/
def Cause.code : Cause → Nat
  | .illegalOpcode => 1
  | .busFault => 2
  | .badRatio => 16
  | .badPolicy => 17
  | .badMirroring => 18
  | .badVectors => 19
  | .notPaused => 32
  | .badBreakpointId => 33

/-- The fault record of a HardwareFault detected in the running cycle: `cycle` is `cpu_cycle_count` after it (R374). -/
def hardwareFault (c : Cause) (address : Addr) (opcode : Byte) (s : State) : FaultRecord :=
  ⟨.hardwareFault, c.code, address, opcode, s.cycles + 1⟩

/-- The fault record after an access: an out-of-range access records a BusFault where no record stands (R375; log 35). The
record's `opcode` is IR as it stands at the access, so that of an opcode fetch is the opcode before (log 34). -/
def faultAfter (a : Addr) (s : State) : Option FaultRecord :=
  match (target s a).kind, s.fault with
  | .outOfRange, none => some (hardwareFault .busFault a s.ir s)
  | _, f => f

/-- The state after a CPU read cycle's access that delivered `v` (R62). -/
def busRead (a : Addr) (v : Byte) (s : State) : State :=
  { s with
    busLatch := v
    freeIdx := s.freeIdx + freeUsed (target s a)
    portLog := readEvents (target s a) ++ s.portLog
    fault := faultAfter a s }

/-- The state after a CPU write cycle's access (R63). -/
def busWrite (a : Addr) (v : Byte) (s : State) : State :=
  { s with
    mem := memAfterWrite (target s a) v s.mem
    busLatch := v
    portLog := writeEvents (target s a) v ++ s.portLog
    fault := faultAfter a s }

/-- The side-effect-free read of the debugger (R83): a register's answer is the `peek` parameter (log 16). -/
def peek (a : Addr) (s : State) : Byte :=
  match (target s a).kind with
  | .ram | .rom => Memory.read s.mem (target s a).cell
  | .port _ _ => Config.peekPort s.portLog.length s.cycles a
  | .undriven | .outOfRange => s.busLatch

/-! ### The clock and the interrupt inputs -/

/-- The PPU steps of the running cycle: `ppu_acc div q` after the addition (R412). -/
def ppuStepsNow (s : State) : Nat := (s.ppuAcc + s.profile.ratioP) / s.profile.ratioQ

/-- What the outside does in the running cycle; with no entry left the lines hold (log 8). -/
def inputNow (s : State) : CycleInput :=
  s.inputs.headD ⟨0, s.ppuLine, s.irqAsserting, false⟩

/-- The clock part of `end_of_cycle()` (R412): the counters, the PPU's steps with the frame event they may fire (R406),
and the levels the outside leaves. The cycles of a reset sequence run it too (R430; log 38). -/
def clock (s : State) : State :=
  { s with
    cycles := s.cycles + 1
    ppuAcc := (s.ppuAcc + s.profile.ratioP) % s.profile.ratioQ
    ppuSteps := s.ppuSteps + ppuStepsNow s
    ppuLine := (inputNow s).ppuLine
    irqAsserting := (inputNow s).irqAsserting
    frameSeen := s.frameSeen || ((inputNow s).frame && decide (0 < ppuStepsNow s))
    inputs := s.inputs.tail }

/-- `nmi_line` (R381). -/
def nmiLine (s : State) : Bool := decide (s.profile.ppuInput = .nmi) && s.ppuLine

/-- `irq_line` (R381). -/
def irqLine (s : State) : Bool :=
  (decide (s.profile.ppuInput = .irq) && s.ppuLine) ||
    s.profile.irqSources.any (fun d => s.irqAsserting.contains d)

/-- `sample_inputs()` (R382). -/
def sampleInputs (s : State) : State :=
  { s with
    nmiPending := s.nmiPending || (nmiLine s && !s.nmiPrev)
    nmiPrev := nmiLine s
    irqSampled := irqLine s }

/-- The value `poll()` gives `int_next` (R384). -/
def pollResult (s : State) : IntNext :=
  if s.nmiPending then .nmi
  else if s.irqSampled && !s.fI then .irq
  else .none

/-- `poll()` at a poll point (R384). -/
def poll (pollPoint : Bool) (s : State) : State :=
  { s with intNext := if pollPoint then pollResult s else s.intNext }

/-- `end_of_cycle()` (R412). -/
def endOfCycle (pollPoint : Bool) (s : State) : State :=
  poll pollPoint (sampleInputs (clock s))

/-! ### One cycle -/

/-- The single bus access of a cycle (R60). -/
inductive Access where
  | read (address : Addr)
  | write (address : Addr) (value : Byte)
  deriving DecidableEq, Repr

/-- The index register's value. -/
def Index.value (r : Index) (s : State) : Byte :=
  match r with
  | .x => s.x
  | .y => s.y

/-- The access of each micro-operation, from the registers at the start of the cycle (R8, R60). -/
def MicroOp.access (u : MicroOp) (s : State) : Access :=
  match u with
  | .opcode | .opcodeJam | .opcodeTrap | .imm _ | .argLo | .argHi | .argHiIdx _ | .argOff | .argJump | .argSig
  | .dummyPC | .implied _ | .branchTake _ | .branchFix _ | .incPC | .entryStart => .read s.pc
  | .idxZp _ | .readDL | .fixRead | .fixWrite | .read _ => .read s.ad
  | .ptrHi | .ptrHiY | .ptrJump => .read (nextInPage s.ad)
  | .stackDummy | .stackInc | .stackDec | .pullA | .pullP | .pullPInc | .pullLo | .pullHi => .read (stackAddr s.sp)
  | .vecLo => .read s.vec
  | .vecHi => .read (s.vec + 1)
  | .writeBack => .write s.ad s.dl
  | .modify op => .write s.ad (op.result s.dl s)
  | .write op => .write s.ad (op.value s)
  | .writeUnstable op => .write (op.address s) (op.value s)
  | .pushA => .write (stackAddr s.sp) s.a
  | .pushPB => .write (stackAddr s.sp) (pByte true s)
  | .pushP => .write (stackAddr s.sp) (pByte s.bflag s)
  | .pushHi => .write (stackAddr s.sp) (hi s.pc)
  | .pushLo | .pushLoVec => .write (stackAddr s.sp) (lo s.pc)

/-- The cycle fetches a byte of the instruction itself (R25). -/
def MicroOp.fetches (u : MicroOp) : Bool :=
  match u with
  | .opcode | .opcodeJam | .opcodeTrap | .imm _ | .argLo | .argHi | .argHiIdx _ | .argOff | .argJump | .argSig => true
  | .dummyPC | .implied _ | .branchTake _ | .branchFix _ | .incPC | .entryStart | .idxZp _ | .readDL | .fixRead
  | .fixWrite | .read _ | .ptrHi | .ptrHiY | .ptrJump | .stackDummy | .stackInc | .stackDec | .pullA | .pullP
  | .pullPInc | .pullLo | .pullHi | .vecLo | .vecHi | .writeBack | .modify _ | .write _ | .writeUnstable _ | .pushA
  | .pushPB | .pushP | .pushHi | .pushLo | .pushLoVec => false

/-- The target of a taken branch, `u16(PC + sext_16(off))` (R144); the offset is in DL. -/
def branchTarget (s : State) : Addr := s.pc + sext s.dl

/-- The register actions of a cycle whose access delivered (or wrote) the byte `v` (40_sequencer.md). -/
def MicroOp.act (u : MicroOp) (v : Byte) (s : State) : State :=
  match u with
  | .opcode => { s with ir := v, pc := s.pc + 1 }
  | .opcodeJam => { s with ir := v, pc := s.pc + 1, halted := true }
  | .opcodeTrap => { s with ir := v, fault := some (hardwareFault .illegalOpcode s.pc v s) }
  | .imm op => op.apply v { s with pc := s.pc + 1 }
  | .argLo => { s with ad := zeroPage v, pc := s.pc + 1 }
  | .argHi => { s with ad := join v (lo s.ad), pc := s.pc + 1 }
  | .argHiIdx r =>
    { s with
      ad := join v (lo s.ad + r.value s)
      crossed := carries (lo s.ad) (r.value s)
      dl := v
      pc := s.pc + 1 }
  | .argOff => { s with dl := v, pc := s.pc + 1 }
  | .argJump => { s with pc := join v (lo s.ad) }
  | .argSig => { s with pc := s.pc + 1, bflag := true }
  | .dummyPC => s
  | .implied op => op.apply s
  | .idxZp r => { s with ad := zeroPage (lo s.ad + r.value s) }
  | .readDL => { s with dl := v }
  | .ptrHi => { s with ad := join v s.dl }
  | .ptrHiY => { s with ad := join v (s.dl + s.y), crossed := carries s.dl s.y, dl := v }
  | .ptrJump => { s with pc := join v s.dl }
  | .fixRead => { s with ad := s.ad + 0x0100 }
  | .fixWrite => { s with ad := if s.crossed then s.ad + 0x0100 else s.ad }
  | .read op => op.apply v s
  | .writeBack => s
  | .modify op => op.apply s.dl s
  | .write _ => s
  | .writeUnstable op => op.finish s
  | .branchTake _ =>
    { s with
      ad := branchTarget s
      crossed := decide (hi (branchTarget s) ≠ hi s.pc)
      pc := join (hi s.pc) (lo (branchTarget s)) }
  | .branchFix _ => { s with pc := s.ad }
  | .stackDummy => s
  | .stackInc => { s with sp := s.sp + 1 }
  | .stackDec => { s with sp := s.sp - 1 }
  | .pushA | .pushPB | .pushP | .pushHi | .pushLo | .pushLoVec => { s with sp := s.sp - 1 }
  | .pullA => setNZ v { s with a := v }
  | .pullP => loadP v s
  | .pullPInc => loadP v { s with sp := s.sp + 1 }
  | .pullLo => { s with ad := zeroPage v, sp := s.sp + 1 }
  | .pullHi => { s with pc := join v (lo s.ad) }
  | .incPC => { s with pc := s.pc + 1 }
  | .entryStart => { s with intNext := .none }
  | .vecLo => { s with dl := v, fI := true }
  | .vecHi => { s with pc := join v s.dl }

/-- The cycle is not made: the page was not crossed (R135, R141), or the branch is not taken or stays in its page
(R144). -/
def MicroOp.skipped (u : MicroOp) (s : State) : Bool :=
  match u with
  | .fixRead => !s.crossed
  | .branchTake c => !c.holds s
  | .branchFix c => !c.holds s || !s.crossed
  | .opcode | .opcodeJam | .opcodeTrap | .imm _ | .argLo | .argHi | .argHiIdx _ | .argOff | .argJump | .argSig
  | .dummyPC | .implied _ | .incPC | .entryStart | .idxZp _ | .readDL | .fixWrite | .read _ | .ptrHi | .ptrHiY
  | .ptrJump | .stackDummy | .stackInc | .stackDec | .pullA | .pullP | .pullPInc | .pullLo | .pullHi | .vecLo
  | .vecHi | .writeBack | .modify _ | .write _ | .writeUnstable _ | .pushA | .pushPB | .pushP | .pushHi | .pushLo
  | .pushLoVec => false

/-- The cycles still to be made of the queued ones. -/
def remaining (us : List MicroOp) (s : State) : Nat :=
  (us.filter (fun u => !u.skipped s)).length

/-- The opcode is a conditional branch: `bbb` = 100 and `cc` = 00 (R92). -/
def isBranch (op : Byte) : Bool := decide (op &&& 0x1F = 0x10)

/-- The running cycle is a poll point of its sequence, `left` cycles being still to be made: the penultimate cycle of
an instruction (R384); T1 and the T3 before a T4 of a branch (R385); none of BRK, the interrupt entry and the reset
sequence (R386). -/
def isPollPoint (left : Nat) (s : State) : Bool :=
  match s.seq with
  | .instr =>
    if isBranch s.ir then decide (s.t = 1) || (decide (s.t = 3) && decide (left = 1))
    else if s.ir = 0x00 then false
    else decide (left = 1)
  | .fetch | .interrupt | .reset | .halted => false

/-- The vector decision (R388): NMI if one is pending, which it serves; else IRQ/BRK. -/
def decideVector (s : State) : State :=
  { s with
    vec := if s.nmiPending then s.profile.vecNmi else s.profile.vecIrq
    nmiPending := false }

/-- What a cycle does after its `end_of_cycle()`: T4 of the interrupt entry chooses the vector (R388, R390). -/
def MicroOp.late (u : MicroOp) (s : State) : State :=
  if u = .pushLoVec then decideVector s else s

/-- The end of R120's `step_cycle()`: after the last cycle of its sequence the machine is at a boundary (or halted);
else T counts on. -/
def advance (us : List MicroOp) (s : State) : State :=
  { s with
    queue := us.dropWhile (fun u => u.skipped s)
    seq := if remaining us s = 0 then (if s.halted then .halted else .fetch) else s.seq
    t := if remaining us s = 0 then s.t else s.t + 1 }

/-- The part of a cycle after its bus access, which delivered `v`. -/
def finishCycle (u : MicroOp) (us : List MicroOp) (v : Byte) (s : State) : State :=
  let s := u.act v s
  advance us (u.late (endOfCycle (isPollPoint (remaining us s) s) s))

/-- ONE CYCLE of a sequence (R120): the bus access, the register actions, `end_of_cycle()`, and T. A fetch of an
instruction byte delivers the byte supplied, if one is (log 12); every other read delivers what the Bus returns. -/
def cycle (u : MicroOp) (us : List MicroOp) (supplied : Option Byte) (s : State) : State :=
  match u.access s with
  | .read a => finishCycle u us (supplied.getD (busValue a s)) (busRead a (supplied.getD (busValue a s)) s)
  | .write a v => finishCycle u us v (busWrite a v s)

/-- The byte supplied to a micro-operation: the next byte of the instruction, for a fetch. -/
def MicroOp.supply (u : MicroOp) (bytes : List Byte) : Option Byte :=
  if u.fetches then bytes.head? else none

/-- The bytes left after a micro-operation. -/
def MicroOp.rest (u : MicroOp) (bytes : List Byte) : List Byte :=
  if u.fetches then bytes.tail else bytes

/-- Runs the cycles of a sequence to its end: `repeat step_cycle()` of R400. `bytes` are the instruction's own bytes
still to be fetched; with none, every fetch reads the Bus. -/
def runOps : List MicroOp → List Byte → State → State
  | [], _, s => s
  | u :: us, bytes, s =>
    if u.skipped s then runOps us bytes s
    else runOps us (u.rest bytes) (cycle u us (u.supply bytes) s)

/-! ### Sequences -/

/-- The start of an instruction's sequence (R120). -/
def startInstr (s : State) : State := { s with seq := .instr, t := 1 }

/-- The meaning of a documented instruction: the cycles of its sequence, on its own bytes. -/
def runInstr (ops : List MicroOp) (bytes : List Byte) (s : State) : Answer :=
  .next (runOps ops bytes (startInstr s))

/-- The meaning of an illegal opcode (R97): its sequence under `emulate` (R322); under `trap` the opcode fetch alone,
which leaves PC at the opcode and records the fault (R321). -/
def runIllegal (ops : List MicroOp) (bytes : List Byte) (s : State) : Answer :=
  match s.profile.policy with
  | .emulate => runInstr ops bytes s
  | .trap => runInstr [.opcodeTrap] bytes s

/-- The cycles T3 to T7 of the interrupt entry, shared by NMI, IRQ and BRK (R390): PC and P are pushed, the vector is
chosen, I is set, and PC is loaded from the vector. -/
def entryTail : List MicroOp := [.pushHi, .pushLoVec, .pushP, .vecLo, .vecHi]

/-- The interrupt entry sequence (R390). -/
def entryOps : List MicroOp := [.entryStart, .dummyPC] ++ entryTail

/-- TAKING AN INTERRUPT: the entry of an NMI or IRQ, with `bflag` 0 (R120, R390). -/
def takeInterrupt (s : State) : State :=
  runOps entryOps [] { s with seq := .interrupt, t := 1, bflag := false }

/-- The cycles of BRK: its own T1 and T2, then the shared entry with `bflag` 1 (R152). -/
def brkOps : List MicroOp := [.opcode, .argSig] ++ entryTail

/-- RETURNING FROM AN INTERRUPT: the cycles of RTI (R149). P is pulled, then PC, which is not incremented (R394). -/
def rtiOps : List MicroOp := [.opcode, .dummyPC, .stackInc, .pullPInc, .pullLo, .pullHi]

/-- The cycles of the reset sequence (R430). -/
def resetOps : List MicroOp := [.dummyPC, .dummyPC, .stackDec, .stackDec, .stackDec, .vecLo, .vecHi]

/-- The start of the reset sequence (R430). -/
def startReset (s : State) : State :=
  { s with
    seq := .reset
    t := 1
    halted := false
    fault := none
    nmiPending := false
    intNext := .none
    vec := s.profile.vecReset
    queue := [] }

/-- The boundary that ends the reset sequence, where `nmi_pending` is 0 and `fault` is none (R44), whatever the sequence's
own cycles sampled or recorded (log 32, log 33). `ppu_acc` and `frame_seen` stay as those cycles leave them (log 38). -/
def endReset (s : State) : State := { s with nmiPending := false, fault := none }

/-- The reset sequence (R430), to the boundary after it (R44). -/
def resetSequence (s : State) : State := endReset (runOps resetOps [] (startReset s))

/-- One cycle of the halted state: no bus access (R345). -/
def haltedCycle (s : State) : State := endOfCycle false s

/-! ### The fetch of an instruction -/

/-- The bus access of one read, as the fetch of the bytes sees it. -/
def readThrough (a : Addr) (s : State) : State := busRead a (busValue a s) s

/-- The state in which JSR reads its high target byte (R147 T6): after its dummy stack read and its two pushes, which
the read can see (R271). -/
def afterJsrPushes (pc : Addr) (s : State) : State :=
  busWrite (stackAddr (s.sp - 1)) (lo pc) (busWrite (stackAddr s.sp) (hi pc) (readThrough (stackAddr s.sp) s))

/-- The three bytes from PC on, as the read cycles of an instruction deliver them (R69, R80): each read sees the bus as
the reads before it left it. An instruction uses as many of them as it is long. -/
def fetchBytes (s : State) : List Byte :=
  let op := busValue s.pc s
  let s1 := readThrough s.pc s
  let l := busValue (s.pc + 1) s1
  let s2 := readThrough (s.pc + 1) s1
  let s3 := if op = 0x20 then afterJsrPushes (s.pc + 2) s2 else s2
  [op, l, busValue (s.pc + 2) s3]

/-! ### Loading from outside -/

/-- Stores a byte in the cell an address resolves to, RAM or ROM: how a program is loaded (log 15). -/
def loadByte (a : Addr) (v : Byte) (s : State) : State :=
  { s with mem := Memory.write s.mem (target s a).cell v }

/-- Stores bytes at ascending addresses. -/
def loadBytes : Addr → List Byte → State → State
  | _, [], s => s
  | a, v :: vs, s => loadBytes (a + 1) vs (loadByte a v s)

end Sys2Proof.Machine
end

