-- ==== Sys2Proof/Machine/Disasm.lean ====
section
/-! DEFINITION. The Disassembler (30_encoding.md R99, R101 to R104; 45_undocumented.md R346): a pure function of the
bytes at an address, and the re-encoding of its text (R103). Text is a list of characters. -/

namespace Sys2Proof.Machine

/-- A mnemonic in upper case (R102). -/
def mnemonicText : Mnemonic → List Char
  | .brk => ['B', 'R', 'K']
  | .ora => ['O', 'R', 'A']
  | .jam => ['J', 'A', 'M']
  | .slo => ['S', 'L', 'O']
  | .nop => ['N', 'O', 'P']
  | .asl => ['A', 'S', 'L']
  | .php => ['P', 'H', 'P']
  | .anc => ['A', 'N', 'C']
  | .bpl => ['B', 'P', 'L']
  | .clc => ['C', 'L', 'C']
  | .jsr => ['J', 'S', 'R']
  | .and => ['A', 'N', 'D']
  | .rla => ['R', 'L', 'A']
  | .bit => ['B', 'I', 'T']
  | .rol => ['R', 'O', 'L']
  | .plp => ['P', 'L', 'P']
  | .bmi => ['B', 'M', 'I']
  | .sec => ['S', 'E', 'C']
  | .rti => ['R', 'T', 'I']
  | .eor => ['E', 'O', 'R']
  | .sre => ['S', 'R', 'E']
  | .lsr => ['L', 'S', 'R']
  | .pha => ['P', 'H', 'A']
  | .alr => ['A', 'L', 'R']
  | .jmp => ['J', 'M', 'P']
  | .bvc => ['B', 'V', 'C']
  | .cli => ['C', 'L', 'I']
  | .rts => ['R', 'T', 'S']
  | .adc => ['A', 'D', 'C']
  | .rra => ['R', 'R', 'A']
  | .ror => ['R', 'O', 'R']
  | .pla => ['P', 'L', 'A']
  | .arr => ['A', 'R', 'R']
  | .bvs => ['B', 'V', 'S']
  | .sei => ['S', 'E', 'I']
  | .sta => ['S', 'T', 'A']
  | .sax => ['S', 'A', 'X']
  | .sty => ['S', 'T', 'Y']
  | .stx => ['S', 'T', 'X']
  | .dey => ['D', 'E', 'Y']
  | .txa => ['T', 'X', 'A']
  | .ane => ['A', 'N', 'E']
  | .bcc => ['B', 'C', 'C']
  | .sha => ['S', 'H', 'A']
  | .tya => ['T', 'Y', 'A']
  | .txs => ['T', 'X', 'S']
  | .tas => ['T', 'A', 'S']
  | .shy => ['S', 'H', 'Y']
  | .shx => ['S', 'H', 'X']
  | .ldy => ['L', 'D', 'Y']
  | .lda => ['L', 'D', 'A']
  | .ldx => ['L', 'D', 'X']
  | .lax => ['L', 'A', 'X']
  | .tay => ['T', 'A', 'Y']
  | .tax => ['T', 'A', 'X']
  | .lxa => ['L', 'X', 'A']
  | .bcs => ['B', 'C', 'S']
  | .clv => ['C', 'L', 'V']
  | .tsx => ['T', 'S', 'X']
  | .las => ['L', 'A', 'S']
  | .cpy => ['C', 'P', 'Y']
  | .cmp => ['C', 'M', 'P']
  | .dcp => ['D', 'C', 'P']
  | .dec => ['D', 'E', 'C']
  | .iny => ['I', 'N', 'Y']
  | .dex => ['D', 'E', 'X']
  | .sbx => ['S', 'B', 'X']
  | .bne => ['B', 'N', 'E']
  | .cld => ['C', 'L', 'D']
  | .cpx => ['C', 'P', 'X']
  | .sbc => ['S', 'B', 'C']
  | .isc => ['I', 'S', 'C']
  | .inc => ['I', 'N', 'C']
  | .inx => ['I', 'N', 'X']
  | .usbc => ['U', 'S', 'B', 'C']
  | .beq => ['B', 'E', 'Q']
  | .sed => ['S', 'E', 'D']

/-- An upper-case hexadecimal digit (R102). -/
def hexDigit (n : Nat) : Char :=
  match n with
  | 0 => '0'
  | 1 => '1'
  | 2 => '2'
  | 3 => '3'
  | 4 => '4'
  | 5 => '5'
  | 6 => '6'
  | 7 => '7'
  | 8 => '8'
  | 9 => '9'
  | 10 => 'A'
  | 11 => 'B'
  | 12 => 'C'
  | 13 => 'D'
  | 14 => 'E'
  | _ => 'F'

/-- A byte as exactly 2 digits (R102). -/
def hex2 (v : Byte) : List Char := [hexDigit (v.toNat / 16), hexDigit (v.toNat % 16)]

/-- An address as exactly 4 digits (R102). -/
def hex4 (a : Addr) : List Char := hex2 (hi a) ++ hex2 (lo a)

/-- How a mode's operand is written (R99): what stands before its digits, their number, what stands after them. -/
structure OperandForm where
  before : List Char
  digits : Nat
  after  : List Char
  deriving DecidableEq, Repr

/-- The syntax of each mode (R99). -/
def modeForm : Mode → OperandForm
  | .imp => ⟨[], 0, []⟩
  | .acc => ⟨['A'], 0, []⟩
  | .imm => ⟨['#', '$'], 2, []⟩
  | .zp => ⟨['$'], 2, []⟩
  | .zpx => ⟨['$'], 2, [',', 'X']⟩
  | .zpy => ⟨['$'], 2, [',', 'Y']⟩
  | .izx => ⟨['(', '$'], 2, [',', 'X', ')']⟩
  | .izy => ⟨['(', '$'], 2, [')', ',', 'Y']⟩
  | .rel => ⟨['$'], 4, []⟩
  | .abs => ⟨['$'], 4, []⟩
  | .abx => ⟨['$'], 4, [',', 'X']⟩
  | .aby => ⟨['$'], 4, [',', 'Y']⟩
  | .ind => ⟨['(', '$'], 4, [')']⟩

/-- The digits of a mode's operand: none, a byte, or an address; a branch shows its target, computed from the
instruction's own address `a` (R102). `l` and `h` are the operand bytes. -/
def operandDigits (mode : Mode) (a : Addr) (l h : Byte) : List Char :=
  match mode with
  | .imp | .acc => []
  | .imm | .zp | .zpx | .zpy | .izx | .izy => hex2 l
  | .rel => hex4 (a + 2 + sext l)
  | .abs | .abx | .aby | .ind => hex4 (join h l)

/-- The operand text (R99, R102). -/
def operandText (mode : Mode) (a : Addr) (l h : Byte) : List Char :=
  (modeForm mode).before ++ operandDigits mode a l h ++ (modeForm mode).after

/-- The placeholder of an illegal opcode (R102, R346). -/
def placeholder : List Char := ['?', '?', '?']

/-- Decodes the instruction at an address through a byte-supplying read interface (R101, R102). -/
def disassemble (read : Addr → Byte) (a : Addr) : Decoded :=
  let op := read a
  let info := opInfo op
  if illegal op then ⟨a, opLength op, placeholder, [], info.mode⟩
  else
    match info.mnemonic with
    | .brk => ⟨a, opLength op, mnemonicText .brk, operandText .imm a (read (a + 1)) 0, info.mode⟩
    | m =>
      ⟨a, opLength op, mnemonicText m,
        operandText info.mode a (if 2 ≤ opLength op then read (a + 1) else 0)
          (if 3 ≤ opLength op then read (a + 2) else 0), info.mode⟩

/-- The value of a hexadecimal digit. -/
def digitValue (c : Char) : Option Nat :=
  (List.range 16).find? (fun n => decide (hexDigit n = c))

/-- The byte two digits write. -/
def parse2 (c d : Char) : Option Byte :=
  match digitValue c, digitValue d with
  | some m, some n => some (BitVec.ofNat 8 (16 * m + n))
  | _, _ => none

/-- The low and high byte written by no, two or four digits. -/
def parseDigits : List Char → Option (Byte × Byte)
  | [] => some (0, 0)
  | [c, d] => (parse2 c d).map (fun l => (l, 0))
  | [c, d, e, f] => (parse2 c d).bind (fun h => (parse2 e f).map (fun l => (l, h)))
  | _ => none

/-- The text has the form's length, what stands before its digits and what stands after. -/
def OperandForm.fits (f : OperandForm) (text : List Char) : Bool :=
  decide (text.length = f.before.length + f.digits + f.after.length) &&
    decide (text.take f.before.length = f.before) &&
    decide (text.drop (f.before.length + f.digits) = f.after)

/-- The modes by shape; a branch's target has the shape of an absolute operand. -/
def shapes : List Mode := [.imp, .acc, .imm, .zp, .zpx, .zpy, .izx, .izy, .abs, .abx, .aby, .ind]

/-- An operand text read back (R103): its mode by its shape (the digit count tells zero page from absolute), and its low
and high byte. -/
def parseOperand (text : List Char) : Option (Mode × Byte × Byte) :=
  (shapes.find? (fun m => (modeForm m).fits text)).bind fun m =>
    (parseDigits ((text.drop (modeForm m).before.length).take (modeForm m).digits)).map fun (l, h) => (m, l, h)

/-- The opcode is the documented one written with this mnemonic and an operand of this shape: BRK is written with an
immediate, a branch with an absolute target (R102). -/
def writtenAs (mnemonic : List Char) (shape : Mode) (op : Nat) : Bool :=
  let info := opInfo (BitVec.ofNat 8 op)
  info.documented && decide (mnemonicText info.mnemonic = mnemonic) &&
    match info.mnemonic, info.mode with
    | .brk, _ => decide (shape = .imm)
    | _, .rel => decide (shape = .abs)
    | _, m => decide (shape = m)

/-- The bytes of an opcode with its operand read back (R103): a branch's offset is `u8(target - (address + 2))`. -/
def rebuild (op : Byte) (a : Addr) (l h : Byte) : List Byte :=
  match (opInfo op).mode, opLength op with
  | .rel, _ => [op, lo (join h l - (a + 2))]
  | _, 1 => [op]
  | _, 2 => [op, l]
  | _, _ => [op, l, h]

/-- Re-encodes a mnemonic and an operand text at an address (R103); the placeholder has no encoding. -/
def reencode (mnemonic operand : List Char) (a : Addr) : Option (List Byte) :=
  (parseOperand operand).bind fun (shape, l, h) =>
    ((List.range 256).find? (writtenAs mnemonic shape)).map fun op => rebuild (BitVec.ofNat 8 op) a l h

end Sys2Proof.Machine
end

