-- ==== Sys2Proof/Machine/Debugger.lean ====
section
/-! DEFINITION. The Debugger Core (60_exceptions.md Part 3): inspection, register and memory overrides, breakpoints, the
check at an instruction boundary, and which commands are CallerMisuse (R377). The commands that run cycles are in
Machine/Tick.lean. -/

namespace Sys2Proof.Machine

/-! ### Inspection and overrides -/

/-- `get_registers()`: P with bit 5 = 1 and bit 4 = 0 (R28, R43). -/
def snapshot (s : State) : Registers := ⟨s.a, s.x, s.y, s.sp, s.pc, pByte false s⟩

/-- `set_registers(r)` (R409). -/
def setRegisters (r : Registers) (s : State) : State :=
  loadP r.p { s with a := r.a, x := r.x, y := r.y, sp := r.s, pc := r.pc }

/-- `write(a, v)`: the Bus's write, which leaves `bus_latch` unchanged (R82, R410; log 14). -/
def debugWrite (a : Addr) (v : Byte) (s : State) : State :=
  { s with
    mem := memAfterWrite (target s a) v s.mem
    portLog := writeEvents (target s a) v ++ s.portLog }

/-- A memory window through `peek`, wrapping at $FFFF (R408). -/
def memoryWindow (start : Addr) (length : Nat) (s : State) : List Byte :=
  (List.range length).map (fun k => peek (start + BitVec.ofNat 16 k) s)

/-- The decoded instruction at an address, through `peek` (R84). -/
def decodedAt (a : Addr) (s : State) : Decoded := disassemble (fun b => peek b s) a

/-- A disassembly range, by its start address and the number of its instructions, each after the one before (R408; DESIGN
CHOICE, log 37). -/
def listing : Nat → Addr → State → List Decoded
  | 0, _, _ => []
  | n + 1, a, s => decodedAt a s :: listing n (a + BitVec.ofNat 16 (decodedAt a s).length) s

/-- `inspect(window)` (R408). -/
def inspect (start : Addr) (length : Nat) (s : State) : Inspection where
  registers  := snapshot s
  memory     := memoryWindow start length s
  decoded    := decodedAt s.pc s
  runState   := s.runState
  stopReason := s.stopReason
  fault      := s.fault
  halted     := s.halted
  nmiPending := s.nmiPending
  intNext    := s.intNext

end Sys2Proof.Machine

namespace Sys2Proof.Config

/-- FREE VALUE: the `breakpoint_condition` parameter (R4, R41): whether the n-th condition holds of a view (log 17). -/
opaque conditionHolds : Nat → Machine.Inspection → Bool

end Sys2Proof.Config

namespace Sys2Proof.Machine

/-! ### Breakpoints -/

/-- The read-only view a condition is evaluated on: the inspection of the whole address space (R404, R408). -/
def view (s : State) : Inspection := inspect 0 65536 s

/-- The breakpoint stops the machine at this boundary (R404). -/
def Breakpoint.hits (b : Breakpoint) (s : State) : Bool :=
  b.enabled && decide (b.address = s.pc) &&
    match b.condition with
    | none => true
    | some c => Config.conditionHolds c (view s)

/-- `add_breakpoint(address, condition)` (R411): ids count up by one (DESIGN CHOICE, log 39). -/
def addBreakpoint (a : Addr) (condition : Option Nat) (s : State) : State :=
  { s with
    breakpoints := s.breakpoints ++ [⟨s.nextBreakpointId, a, true, condition⟩]
    nextBreakpointId := s.nextBreakpointId + 1 }

/-- `remove_breakpoint(id)` (R411). -/
def removeBreakpoint (id : Nat) (s : State) : State :=
  { s with breakpoints := s.breakpoints.filter (fun b => decide (b.id ≠ id)) }

/-! ### The boundary -/

/-- The first case of `boundary_check()` that applies, if one does (R404). -/
def boundaryStop (s : State) : Option StopReason :=
  if s.fault.isSome then some .fault
  else if s.runState = .steppingInstruction then some .stepDone
  else if s.pauseRequested then some .command
  else if s.runState = .steppingFrame ∧ s.frameSeen then some .frameDone
  else if s.halted = false ∧ s.intNext = .none then
    (s.breakpoints.find? (fun b => b.hits s)).map (fun b => .breakpoint b.id)
  else none

/-- The Run State after a boundary: Paused where a case applies. -/
def runStateAfter (stop : Option StopReason) (s : State) : RunState :=
  if stop.isSome then .paused else s.runState

/-- `boundary_check()` (R404). -/
def boundaryCheck (s : State) : State :=
  { s with
    runState := runStateAfter (boundaryStop s) s
    stopReason := (boundaryStop s).getD s.stopReason
    pauseRequested := if boundaryStop s = some .command then false else s.pauseRequested }

/-! ### Commands -/

/-- The cause for which a command is CallerMisuse, if it is (R377). -/
def misuse (c : Command) (s : State) : Option Cause :=
  match c with
  | .pause | .addBreakpoint _ _ => none
  | .removeBreakpoint id =>
    if s.breakpoints.any (fun b => decide (b.id = id)) then none else some .badBreakpointId
  | .continueExecution | .stepInstruction | .stepFrame | .reset | .setRegisters _ | .write _ _ | .inspect _ _
  | .memoryWindow _ _ | .disassembly _ _ =>
    if s.runState = .paused then none else some .notPaused

/-- What a command answers its caller. -/
inductive Response where
  | accepted
  | breakpointId (id : Nat)
  | inspection (value : Inspection)
  | bytes (value : List Byte)
  | listing (value : List Decoded)
  | misuse (code : Nat)
  deriving DecidableEq, Repr

/-- The answer of a command issued in this state (R377, R408, R411). -/
def respond (c : Command) (s : State) : Response :=
  match misuse c s with
  | some cause => .misuse cause.code
  | none =>
    match c with
    | .addBreakpoint _ _ => .breakpointId s.nextBreakpointId
    | .inspect start length => .inspection (inspect start length s)
    | .memoryWindow start length => .bytes (memoryWindow start length s)
    | .disassembly start count => .listing (listing count start s)
    | .continueExecution | .pause | .stepInstruction | .stepFrame | .reset | .setRegisters _ | .write _ _
    | .removeBreakpoint _ => .accepted

/-- What `run`, `step_instruction` and `step_frame` clear before they set the Run State (R401, R405, R406). -/
def startRun (r : RunState) (s : State) : State :=
  { s with fault := none, pauseRequested := false, stopReason := .none, runState := r }

/-- `pause()`: a request that the next boundary takes; nothing while Paused (R402; log 24). -/
def requestPause (s : State) : State :=
  { s with pauseRequested := if s.runState = .paused then s.pauseRequested else true }

end Sys2Proof.Machine
end

