-- ==== Sys2Proof/Machine/Operands.lean ====
section
/-! DEFINITION. Every operand form (30_encoding.md R93): the sequence of cycles of each addressing mode in each access
class (40_sequencer.md R124 to R147), and the effective addresses by their formulas. -/

namespace Sys2Proof.Machine

/-! ### The read class -/

/-- Immediate (R125). -/
def readImm (op : ReadOp) : List MicroOp := [.opcode, .imm op]

/-- Zero page (R126). -/
def readZp (op : ReadOp) : List MicroOp := [.opcode, .argLo, .read op]

/-- Zero page,X and zero page,Y (R129). -/
def readZpIdx (r : Index) (op : ReadOp) : List MicroOp := [.opcode, .argLo, .idxZp r, .read op]

/-- Absolute (R132). -/
def readAbs (op : ReadOp) : List MicroOp := [.opcode, .argLo, .argHi, .read op]

/-- Absolute,X and absolute,Y (R135): the fixing cycle is made only when the page is crossed. -/
def readAbsIdx (r : Index) (op : ReadOp) : List MicroOp := [.opcode, .argLo, .argHiIdx r, .fixRead, .read op]

/-- (zp,X) (R138). -/
def readIzx (op : ReadOp) : List MicroOp := [.opcode, .argLo, .idxZp .x, .readDL, .ptrHi, .read op]

/-- (zp),Y (R141): the fixing cycle is made only when the page is crossed. -/
def readIzy (op : ReadOp) : List MicroOp := [.opcode, .argLo, .readDL, .ptrHiY, .fixRead, .read op]

/-! ### The write class; `w` is the last cycle -/

/-- Zero page (R127). -/
def writeZp (w : MicroOp) : List MicroOp := [.opcode, .argLo, w]

/-- Zero page,X and zero page,Y (R130). -/
def writeZpIdx (r : Index) (w : MicroOp) : List MicroOp := [.opcode, .argLo, .idxZp r, w]

/-- Absolute (R133). -/
def writeAbs (w : MicroOp) : List MicroOp := [.opcode, .argLo, .argHi, w]

/-- Absolute,X and absolute,Y (R136). -/
def writeAbsIdx (r : Index) (w : MicroOp) : List MicroOp := [.opcode, .argLo, .argHiIdx r, .fixWrite, w]

/-- (zp,X) (R139). -/
def writeIzx (w : MicroOp) : List MicroOp := [.opcode, .argLo, .idxZp .x, .readDL, .ptrHi, w]

/-- (zp),Y (R142). -/
def writeIzy (w : MicroOp) : List MicroOp := [.opcode, .argLo, .readDL, .ptrHiY, .fixWrite, w]

/-! ### The read-modify-write class -/

/-- The three accesses of every read-modify-write: the read, the dummy write-back, the write of the result (R73). -/
def rmwTail (op : RmwOp) : List MicroOp := [.readDL, .writeBack, .modify op]

/-- Zero page (R128). -/
def rmwZp (op : RmwOp) : List MicroOp := [.opcode, .argLo] ++ rmwTail op

/-- Zero page,X (R131). -/
def rmwZpx (op : RmwOp) : List MicroOp := [.opcode, .argLo, .idxZp .x] ++ rmwTail op

/-- Absolute (R134). -/
def rmwAbs (op : RmwOp) : List MicroOp := [.opcode, .argLo, .argHi] ++ rmwTail op

/-- Absolute,X and absolute,Y (R137). -/
def rmwAbsIdx (r : Index) (op : RmwOp) : List MicroOp := [.opcode, .argLo, .argHiIdx r, .fixWrite] ++ rmwTail op

/-- (zp,X) (R140). -/
def rmwIzx (op : RmwOp) : List MicroOp := [.opcode, .argLo, .idxZp .x, .readDL, .ptrHi] ++ rmwTail op

/-- (zp),Y (R143). -/
def rmwIzy (op : RmwOp) : List MicroOp := [.opcode, .argLo, .readDL, .ptrHiY, .fixWrite] ++ rmwTail op

/-! ### The other classes -/

/-- Implied and accumulator (R124). -/
def impliedOps (op : ImpliedOp) : List MicroOp := [.opcode, .implied op]

/-- A conditional branch (R144). -/
def branchOps (c : Cond) : List MicroOp := [.opcode, .argOff, .branchTake c, .branchFix c]

/-- JMP absolute (R145). -/
def jmpAbsOps : List MicroOp := [.opcode, .argLo, .argJump]

/-- JMP indirect (R146). -/
def jmpIndOps : List MicroOp := [.opcode, .argLo, .argHi, .readDL, .ptrJump]

/-- JSR (R147). -/
def jsrOps : List MicroOp := [.opcode, .argLo, .stackDummy, .pushHi, .pushLo, .argJump]

/-- RTS (R148). -/
def rtsOps : List MicroOp := [.opcode, .dummyPC, .stackInc, .pullLo, .pullHi, .incPC]

/-- PHA (R150). -/
def phaOps : List MicroOp := [.opcode, .dummyPC, .pushA]

/-- PHP (R150). -/
def phpOps : List MicroOp := [.opcode, .dummyPC, .pushPB]

/-- PLA (R151). -/
def plaOps : List MicroOp := [.opcode, .dummyPC, .stackInc, .pullA]

/-- PLP (R151). -/
def plpOps : List MicroOp := [.opcode, .dummyPC, .stackInc, .pullP]

/-- JAM under `emulate` (R153). -/
def jamOps : List MicroOp := [.opcodeJam]

end Sys2Proof.Machine
end

