-- ==== Sys2Proof/Machine/Arith.lean ====
section
/-! DEFINITION. Add, subtract, logic, compare and bit test (43_alu.md R224 to R232): one meaning for each constructor, its addressing mode's cycles over its operation. -/

namespace Sys2Proof.Machine

/-- ORA (nn,X): R227, R138. -/
def execOraIzx (z : Byte) (s : State) : Answer :=
  runInstr (readIzx .ora) [0x01, z] s

/-- ORA nn: R227, R126. -/
def execOraZp (z : Byte) (s : State) : Answer :=
  runInstr (readZp .ora) [0x05, z] s

/-- ORA #nn: R227, R125. -/
def execOraImm (v : Byte) (s : State) : Answer :=
  runInstr (readImm .ora) [0x09, v] s

/-- ORA hhll: R227, R132. -/
def execOraAbs (a : Addr) (s : State) : Answer :=
  runInstr (readAbs .ora) [0x0D, lo a, hi a] s

/-- ORA (nn),Y: R227, R141. -/
def execOraIzy (z : Byte) (s : State) : Answer :=
  runInstr (readIzy .ora) [0x11, z] s

/-- ORA nn,X: R227, R129. -/
def execOraZpx (z : Byte) (s : State) : Answer :=
  runInstr (readZpIdx .x .ora) [0x15, z] s

/-- ORA hhll,Y: R227, R135. -/
def execOraAby (a : Addr) (s : State) : Answer :=
  runInstr (readAbsIdx .y .ora) [0x19, lo a, hi a] s

/-- ORA hhll,X: R227, R135. -/
def execOraAbx (a : Addr) (s : State) : Answer :=
  runInstr (readAbsIdx .x .ora) [0x1D, lo a, hi a] s

/-- AND (nn,X): R226, R138. -/
def execAndIzx (z : Byte) (s : State) : Answer :=
  runInstr (readIzx .and) [0x21, z] s

/-- BIT nn: R232, R126. -/
def execBitZp (z : Byte) (s : State) : Answer :=
  runInstr (readZp .bit) [0x24, z] s

/-- AND nn: R226, R126. -/
def execAndZp (z : Byte) (s : State) : Answer :=
  runInstr (readZp .and) [0x25, z] s

/-- AND #nn: R226, R125. -/
def execAndImm (v : Byte) (s : State) : Answer :=
  runInstr (readImm .and) [0x29, v] s

/-- BIT hhll: R232, R132. -/
def execBitAbs (a : Addr) (s : State) : Answer :=
  runInstr (readAbs .bit) [0x2C, lo a, hi a] s

/-- AND hhll: R226, R132. -/
def execAndAbs (a : Addr) (s : State) : Answer :=
  runInstr (readAbs .and) [0x2D, lo a, hi a] s

/-- AND (nn),Y: R226, R141. -/
def execAndIzy (z : Byte) (s : State) : Answer :=
  runInstr (readIzy .and) [0x31, z] s

/-- AND nn,X: R226, R129. -/
def execAndZpx (z : Byte) (s : State) : Answer :=
  runInstr (readZpIdx .x .and) [0x35, z] s

/-- AND hhll,Y: R226, R135. -/
def execAndAby (a : Addr) (s : State) : Answer :=
  runInstr (readAbsIdx .y .and) [0x39, lo a, hi a] s

/-- AND hhll,X: R226, R135. -/
def execAndAbx (a : Addr) (s : State) : Answer :=
  runInstr (readAbsIdx .x .and) [0x3D, lo a, hi a] s

/-- EOR (nn,X): R228, R138. -/
def execEorIzx (z : Byte) (s : State) : Answer :=
  runInstr (readIzx .eor) [0x41, z] s

/-- EOR nn: R228, R126. -/
def execEorZp (z : Byte) (s : State) : Answer :=
  runInstr (readZp .eor) [0x45, z] s

/-- EOR #nn: R228, R125. -/
def execEorImm (v : Byte) (s : State) : Answer :=
  runInstr (readImm .eor) [0x49, v] s

/-- EOR hhll: R228, R132. -/
def execEorAbs (a : Addr) (s : State) : Answer :=
  runInstr (readAbs .eor) [0x4D, lo a, hi a] s

/-- EOR (nn),Y: R228, R141. -/
def execEorIzy (z : Byte) (s : State) : Answer :=
  runInstr (readIzy .eor) [0x51, z] s

/-- EOR nn,X: R228, R129. -/
def execEorZpx (z : Byte) (s : State) : Answer :=
  runInstr (readZpIdx .x .eor) [0x55, z] s

/-- EOR hhll,Y: R228, R135. -/
def execEorAby (a : Addr) (s : State) : Answer :=
  runInstr (readAbsIdx .y .eor) [0x59, lo a, hi a] s

/-- EOR hhll,X: R228, R135. -/
def execEorAbx (a : Addr) (s : State) : Answer :=
  runInstr (readAbsIdx .x .eor) [0x5D, lo a, hi a] s

/-- ADC (nn,X): R224, R138. -/
def execAdcIzx (z : Byte) (s : State) : Answer :=
  runInstr (readIzx .adc) [0x61, z] s

/-- ADC nn: R224, R126. -/
def execAdcZp (z : Byte) (s : State) : Answer :=
  runInstr (readZp .adc) [0x65, z] s

/-- ADC #nn: R224, R125. -/
def execAdcImm (v : Byte) (s : State) : Answer :=
  runInstr (readImm .adc) [0x69, v] s

/-- ADC hhll: R224, R132. -/
def execAdcAbs (a : Addr) (s : State) : Answer :=
  runInstr (readAbs .adc) [0x6D, lo a, hi a] s

/-- ADC (nn),Y: R224, R141. -/
def execAdcIzy (z : Byte) (s : State) : Answer :=
  runInstr (readIzy .adc) [0x71, z] s

/-- ADC nn,X: R224, R129. -/
def execAdcZpx (z : Byte) (s : State) : Answer :=
  runInstr (readZpIdx .x .adc) [0x75, z] s

/-- ADC hhll,Y: R224, R135. -/
def execAdcAby (a : Addr) (s : State) : Answer :=
  runInstr (readAbsIdx .y .adc) [0x79, lo a, hi a] s

/-- ADC hhll,X: R224, R135. -/
def execAdcAbx (a : Addr) (s : State) : Answer :=
  runInstr (readAbsIdx .x .adc) [0x7D, lo a, hi a] s

/-- CPY #nn: R231, R125. -/
def execCpyImm (v : Byte) (s : State) : Answer :=
  runInstr (readImm .cpy) [0xC0, v] s

/-- CMP (nn,X): R229, R138. -/
def execCmpIzx (z : Byte) (s : State) : Answer :=
  runInstr (readIzx .cmp) [0xC1, z] s

/-- CPY nn: R231, R126. -/
def execCpyZp (z : Byte) (s : State) : Answer :=
  runInstr (readZp .cpy) [0xC4, z] s

/-- CMP nn: R229, R126. -/
def execCmpZp (z : Byte) (s : State) : Answer :=
  runInstr (readZp .cmp) [0xC5, z] s

/-- CMP #nn: R229, R125. -/
def execCmpImm (v : Byte) (s : State) : Answer :=
  runInstr (readImm .cmp) [0xC9, v] s

/-- CPY hhll: R231, R132. -/
def execCpyAbs (a : Addr) (s : State) : Answer :=
  runInstr (readAbs .cpy) [0xCC, lo a, hi a] s

/-- CMP hhll: R229, R132. -/
def execCmpAbs (a : Addr) (s : State) : Answer :=
  runInstr (readAbs .cmp) [0xCD, lo a, hi a] s

/-- CMP (nn),Y: R229, R141. -/
def execCmpIzy (z : Byte) (s : State) : Answer :=
  runInstr (readIzy .cmp) [0xD1, z] s

/-- CMP nn,X: R229, R129. -/
def execCmpZpx (z : Byte) (s : State) : Answer :=
  runInstr (readZpIdx .x .cmp) [0xD5, z] s

/-- CMP hhll,Y: R229, R135. -/
def execCmpAby (a : Addr) (s : State) : Answer :=
  runInstr (readAbsIdx .y .cmp) [0xD9, lo a, hi a] s

/-- CMP hhll,X: R229, R135. -/
def execCmpAbx (a : Addr) (s : State) : Answer :=
  runInstr (readAbsIdx .x .cmp) [0xDD, lo a, hi a] s

/-- CPX #nn: R230, R125. -/
def execCpxImm (v : Byte) (s : State) : Answer :=
  runInstr (readImm .cpx) [0xE0, v] s

/-- SBC (nn,X): R225, R138. -/
def execSbcIzx (z : Byte) (s : State) : Answer :=
  runInstr (readIzx .sbc) [0xE1, z] s

/-- CPX nn: R230, R126. -/
def execCpxZp (z : Byte) (s : State) : Answer :=
  runInstr (readZp .cpx) [0xE4, z] s

/-- SBC nn: R225, R126. -/
def execSbcZp (z : Byte) (s : State) : Answer :=
  runInstr (readZp .sbc) [0xE5, z] s

/-- SBC #nn: R225, R125. -/
def execSbcImm (v : Byte) (s : State) : Answer :=
  runInstr (readImm .sbc) [0xE9, v] s

/-- CPX hhll: R230, R132. -/
def execCpxAbs (a : Addr) (s : State) : Answer :=
  runInstr (readAbs .cpx) [0xEC, lo a, hi a] s

/-- SBC hhll: R225, R132. -/
def execSbcAbs (a : Addr) (s : State) : Answer :=
  runInstr (readAbs .sbc) [0xED, lo a, hi a] s

/-- SBC (nn),Y: R225, R141. -/
def execSbcIzy (z : Byte) (s : State) : Answer :=
  runInstr (readIzy .sbc) [0xF1, z] s

/-- SBC nn,X: R225, R129. -/
def execSbcZpx (z : Byte) (s : State) : Answer :=
  runInstr (readZpIdx .x .sbc) [0xF5, z] s

/-- SBC hhll,Y: R225, R135. -/
def execSbcAby (a : Addr) (s : State) : Answer :=
  runInstr (readAbsIdx .y .sbc) [0xF9, lo a, hi a] s

/-- SBC hhll,X: R225, R135. -/
def execSbcAbx (a : Addr) (s : State) : Answer :=
  runInstr (readAbsIdx .x .sbc) [0xFD, lo a, hi a] s

end Sys2Proof.Machine
end

