-- ==== Sys2Proof/Machine/Control.lean ====
section
/-! DEFINITION. Jumps, calls, returns, branches and BRK (44_control.md R270 to R283): one meaning for each constructor, its addressing mode's cycles over its operation. -/

namespace Sys2Proof.Machine

/-- BRK #nn: R274, R152. -/
def execBrk (sig : Byte) (s : State) : Answer :=
  runInstr brkOps [0x00, sig] s

/-- BPL tttt: R276, R144. -/
def execBpl (o : Byte) (s : State) : Answer :=
  runInstr (branchOps .pl) [0x10, o] s

/-- JSR hhll: R271, R147. -/
def execJsr (a : Addr) (s : State) : Answer :=
  runInstr jsrOps [0x20, lo a, hi a] s

/-- BMI tttt: R277, R144. -/
def execBmi (o : Byte) (s : State) : Answer :=
  runInstr (branchOps .mi) [0x30, o] s

/-- RTI: R273, R149. -/
def execRti (s : State) : Answer :=
  runInstr rtiOps [0x40] s

/-- JMP hhll: R270, R145. -/
def execJmpAbs (a : Addr) (s : State) : Answer :=
  runInstr jmpAbsOps [0x4C, lo a, hi a] s

/-- BVC tttt: R278, R144. -/
def execBvc (o : Byte) (s : State) : Answer :=
  runInstr (branchOps .vc) [0x50, o] s

/-- RTS: R272, R148. -/
def execRts (s : State) : Answer :=
  runInstr rtsOps [0x60] s

/-- JMP (hhll): R270, R146. -/
def execJmpInd (a : Addr) (s : State) : Answer :=
  runInstr jmpIndOps [0x6C, lo a, hi a] s

/-- BVS tttt: R279, R144. -/
def execBvs (o : Byte) (s : State) : Answer :=
  runInstr (branchOps .vs) [0x70, o] s

/-- BCC tttt: R280, R144. -/
def execBcc (o : Byte) (s : State) : Answer :=
  runInstr (branchOps .cc) [0x90, o] s

/-- BCS tttt: R281, R144. -/
def execBcs (o : Byte) (s : State) : Answer :=
  runInstr (branchOps .cs) [0xB0, o] s

/-- BNE tttt: R282, R144. -/
def execBne (o : Byte) (s : State) : Answer :=
  runInstr (branchOps .ne) [0xD0, o] s

/-- BEQ tttt: R283, R144. -/
def execBeq (o : Byte) (s : State) : Answer :=
  runInstr (branchOps .eq) [0xF0, o] s

end Sys2Proof.Machine
end

