-- ==== Sys2Proof/Machine/FlagOps.lean ====
section
/-! DEFINITION. Flag operations and NOP (44_control.md R284 to R291): one meaning for each constructor, its addressing mode's cycles over its operation. -/

namespace Sys2Proof.Machine

/-- CLC: R284, R124. -/
def execClc (s : State) : Answer :=
  runInstr (impliedOps .clc) [0x18] s

/-- SEC: R285, R124. -/
def execSec (s : State) : Answer :=
  runInstr (impliedOps .sec) [0x38] s

/-- CLI: R286, R124. -/
def execCli (s : State) : Answer :=
  runInstr (impliedOps .cli) [0x58] s

/-- SEI: R287, R124. -/
def execSei (s : State) : Answer :=
  runInstr (impliedOps .sei) [0x78] s

/-- CLV: R288, R124. -/
def execClv (s : State) : Answer :=
  runInstr (impliedOps .clv) [0xB8] s

/-- CLD: R289, R124. -/
def execCld (s : State) : Answer :=
  runInstr (impliedOps .cld) [0xD8] s

/-- NOP: R291, R124. -/
def execNop (s : State) : Answer :=
  runInstr (impliedOps .nop) [0xEA] s

/-- SED: R290, R124. -/
def execSed (s : State) : Answer :=
  runInstr (impliedOps .sed) [0xF8] s

end Sys2Proof.Machine
end

