-- ==== Sys2Proof/Machine/IncDec.lean ====
section
/-! DEFINITION. Increments and decrements (43_alu.md R233 to R238): one meaning for each constructor, its addressing mode's cycles over its operation. -/

namespace Sys2Proof.Machine

/-- DEY: R238, R124. -/
def execDey (s : State) : Answer :=
  runInstr (impliedOps .dey) [0x88] s

/-- DEC nn: R234, R128. -/
def execDecZp (z : Byte) (s : State) : Answer :=
  runInstr (rmwZp .dec) [0xC6, z] s

/-- INY: R236, R124. -/
def execIny (s : State) : Answer :=
  runInstr (impliedOps .iny) [0xC8] s

/-- DEX: R237, R124. -/
def execDex (s : State) : Answer :=
  runInstr (impliedOps .dex) [0xCA] s

/-- DEC hhll: R234, R134. -/
def execDecAbs (a : Addr) (s : State) : Answer :=
  runInstr (rmwAbs .dec) [0xCE, lo a, hi a] s

/-- DEC nn,X: R234, R131. -/
def execDecZpx (z : Byte) (s : State) : Answer :=
  runInstr (rmwZpx .dec) [0xD6, z] s

/-- DEC hhll,X: R234, R137. -/
def execDecAbx (a : Addr) (s : State) : Answer :=
  runInstr (rmwAbsIdx .x .dec) [0xDE, lo a, hi a] s

/-- INC nn: R233, R128. -/
def execIncZp (z : Byte) (s : State) : Answer :=
  runInstr (rmwZp .inc) [0xE6, z] s

/-- INX: R235, R124. -/
def execInx (s : State) : Answer :=
  runInstr (impliedOps .inx) [0xE8] s

/-- INC hhll: R233, R134. -/
def execIncAbs (a : Addr) (s : State) : Answer :=
  runInstr (rmwAbs .inc) [0xEE, lo a, hi a] s

/-- INC nn,X: R233, R131. -/
def execIncZpx (z : Byte) (s : State) : Answer :=
  runInstr (rmwZpx .inc) [0xF6, z] s

/-- INC hhll,X: R233, R137. -/
def execIncAbx (a : Addr) (s : State) : Answer :=
  runInstr (rmwAbsIdx .x .inc) [0xFE, lo a, hi a] s

end Sys2Proof.Machine
end

