-- ==== Sys2Proof/Machine/LoadStore.lean ====
section
/-! DEFINITION. Loads and stores (41_load_store_transfer.md R170 to R175): one meaning for each constructor, its addressing mode's cycles over its operation. -/

namespace Sys2Proof.Machine

/-- STA (nn,X): R173, R139. -/
def execStaIzx (z : Byte) (s : State) : Answer :=
  runInstr (writeIzx (.write .sta)) [0x81, z] s

/-- STY nn: R175, R127. -/
def execStyZp (z : Byte) (s : State) : Answer :=
  runInstr (writeZp (.write .sty)) [0x84, z] s

/-- STA nn: R173, R127. -/
def execStaZp (z : Byte) (s : State) : Answer :=
  runInstr (writeZp (.write .sta)) [0x85, z] s

/-- STX nn: R174, R127. -/
def execStxZp (z : Byte) (s : State) : Answer :=
  runInstr (writeZp (.write .stx)) [0x86, z] s

/-- STY hhll: R175, R133. -/
def execStyAbs (a : Addr) (s : State) : Answer :=
  runInstr (writeAbs (.write .sty)) [0x8C, lo a, hi a] s

/-- STA hhll: R173, R133. -/
def execStaAbs (a : Addr) (s : State) : Answer :=
  runInstr (writeAbs (.write .sta)) [0x8D, lo a, hi a] s

/-- STX hhll: R174, R133. -/
def execStxAbs (a : Addr) (s : State) : Answer :=
  runInstr (writeAbs (.write .stx)) [0x8E, lo a, hi a] s

/-- STA (nn),Y: R173, R142. -/
def execStaIzy (z : Byte) (s : State) : Answer :=
  runInstr (writeIzy (.write .sta)) [0x91, z] s

/-- STY nn,X: R175, R130. -/
def execStyZpx (z : Byte) (s : State) : Answer :=
  runInstr (writeZpIdx .x (.write .sty)) [0x94, z] s

/-- STA nn,X: R173, R130. -/
def execStaZpx (z : Byte) (s : State) : Answer :=
  runInstr (writeZpIdx .x (.write .sta)) [0x95, z] s

/-- STX nn,Y: R174, R130. -/
def execStxZpy (z : Byte) (s : State) : Answer :=
  runInstr (writeZpIdx .y (.write .stx)) [0x96, z] s

/-- STA hhll,Y: R173, R136. -/
def execStaAby (a : Addr) (s : State) : Answer :=
  runInstr (writeAbsIdx .y (.write .sta)) [0x99, lo a, hi a] s

/-- STA hhll,X: R173, R136. -/
def execStaAbx (a : Addr) (s : State) : Answer :=
  runInstr (writeAbsIdx .x (.write .sta)) [0x9D, lo a, hi a] s

/-- LDY #nn: R172, R125. -/
def execLdyImm (v : Byte) (s : State) : Answer :=
  runInstr (readImm .ldy) [0xA0, v] s

/-- LDA (nn,X): R170, R138. -/
def execLdaIzx (z : Byte) (s : State) : Answer :=
  runInstr (readIzx .lda) [0xA1, z] s

/-- LDX #nn: R171, R125. -/
def execLdxImm (v : Byte) (s : State) : Answer :=
  runInstr (readImm .ldx) [0xA2, v] s

/-- LDY nn: R172, R126. -/
def execLdyZp (z : Byte) (s : State) : Answer :=
  runInstr (readZp .ldy) [0xA4, z] s

/-- LDA nn: R170, R126. -/
def execLdaZp (z : Byte) (s : State) : Answer :=
  runInstr (readZp .lda) [0xA5, z] s

/-- LDX nn: R171, R126. -/
def execLdxZp (z : Byte) (s : State) : Answer :=
  runInstr (readZp .ldx) [0xA6, z] s

/-- LDA #nn: R170, R125. -/
def execLdaImm (v : Byte) (s : State) : Answer :=
  runInstr (readImm .lda) [0xA9, v] s

/-- LDY hhll: R172, R132. -/
def execLdyAbs (a : Addr) (s : State) : Answer :=
  runInstr (readAbs .ldy) [0xAC, lo a, hi a] s

/-- LDA hhll: R170, R132. -/
def execLdaAbs (a : Addr) (s : State) : Answer :=
  runInstr (readAbs .lda) [0xAD, lo a, hi a] s

/-- LDX hhll: R171, R132. -/
def execLdxAbs (a : Addr) (s : State) : Answer :=
  runInstr (readAbs .ldx) [0xAE, lo a, hi a] s

/-- LDA (nn),Y: R170, R141. -/
def execLdaIzy (z : Byte) (s : State) : Answer :=
  runInstr (readIzy .lda) [0xB1, z] s

/-- LDY nn,X: R172, R129. -/
def execLdyZpx (z : Byte) (s : State) : Answer :=
  runInstr (readZpIdx .x .ldy) [0xB4, z] s

/-- LDA nn,X: R170, R129. -/
def execLdaZpx (z : Byte) (s : State) : Answer :=
  runInstr (readZpIdx .x .lda) [0xB5, z] s

/-- LDX nn,Y: R171, R129. -/
def execLdxZpy (z : Byte) (s : State) : Answer :=
  runInstr (readZpIdx .y .ldx) [0xB6, z] s

/-- LDA hhll,Y: R170, R135. -/
def execLdaAby (a : Addr) (s : State) : Answer :=
  runInstr (readAbsIdx .y .lda) [0xB9, lo a, hi a] s

/-- LDY hhll,X: R172, R135. -/
def execLdyAbx (a : Addr) (s : State) : Answer :=
  runInstr (readAbsIdx .x .ldy) [0xBC, lo a, hi a] s

/-- LDA hhll,X: R170, R135. -/
def execLdaAbx (a : Addr) (s : State) : Answer :=
  runInstr (readAbsIdx .x .lda) [0xBD, lo a, hi a] s

/-- LDX hhll,Y: R171, R135. -/
def execLdxAby (a : Addr) (s : State) : Answer :=
  runInstr (readAbsIdx .y .ldx) [0xBE, lo a, hi a] s

end Sys2Proof.Machine
end

