-- ==== Sys2Proof/Machine/Shift.lean ====
section
/-! DEFINITION. Shifts and rotates (43_alu.md R239 to R242): one meaning for each constructor, its addressing mode's cycles over its operation. -/

namespace Sys2Proof.Machine

/-- ASL nn: R239, R128. -/
def execAslZp (z : Byte) (s : State) : Answer :=
  runInstr (rmwZp .asl) [0x06, z] s

/-- ASL A: R239, R124. -/
def execAslAcc (s : State) : Answer :=
  runInstr (impliedOps .aslA) [0x0A] s

/-- ASL hhll: R239, R134. -/
def execAslAbs (a : Addr) (s : State) : Answer :=
  runInstr (rmwAbs .asl) [0x0E, lo a, hi a] s

/-- ASL nn,X: R239, R131. -/
def execAslZpx (z : Byte) (s : State) : Answer :=
  runInstr (rmwZpx .asl) [0x16, z] s

/-- ASL hhll,X: R239, R137. -/
def execAslAbx (a : Addr) (s : State) : Answer :=
  runInstr (rmwAbsIdx .x .asl) [0x1E, lo a, hi a] s

/-- ROL nn: R241, R128. -/
def execRolZp (z : Byte) (s : State) : Answer :=
  runInstr (rmwZp .rol) [0x26, z] s

/-- ROL A: R241, R124. -/
def execRolAcc (s : State) : Answer :=
  runInstr (impliedOps .rolA) [0x2A] s

/-- ROL hhll: R241, R134. -/
def execRolAbs (a : Addr) (s : State) : Answer :=
  runInstr (rmwAbs .rol) [0x2E, lo a, hi a] s

/-- ROL nn,X: R241, R131. -/
def execRolZpx (z : Byte) (s : State) : Answer :=
  runInstr (rmwZpx .rol) [0x36, z] s

/-- ROL hhll,X: R241, R137. -/
def execRolAbx (a : Addr) (s : State) : Answer :=
  runInstr (rmwAbsIdx .x .rol) [0x3E, lo a, hi a] s

/-- LSR nn: R240, R128. -/
def execLsrZp (z : Byte) (s : State) : Answer :=
  runInstr (rmwZp .lsr) [0x46, z] s

/-- LSR A: R240, R124. -/
def execLsrAcc (s : State) : Answer :=
  runInstr (impliedOps .lsrA) [0x4A] s

/-- LSR hhll: R240, R134. -/
def execLsrAbs (a : Addr) (s : State) : Answer :=
  runInstr (rmwAbs .lsr) [0x4E, lo a, hi a] s

/-- LSR nn,X: R240, R131. -/
def execLsrZpx (z : Byte) (s : State) : Answer :=
  runInstr (rmwZpx .lsr) [0x56, z] s

/-- LSR hhll,X: R240, R137. -/
def execLsrAbx (a : Addr) (s : State) : Answer :=
  runInstr (rmwAbsIdx .x .lsr) [0x5E, lo a, hi a] s

/-- ROR nn: R242, R128. -/
def execRorZp (z : Byte) (s : State) : Answer :=
  runInstr (rmwZp .ror) [0x66, z] s

/-- ROR A: R242, R124. -/
def execRorAcc (s : State) : Answer :=
  runInstr (impliedOps .rorA) [0x6A] s

/-- ROR hhll: R242, R134. -/
def execRorAbs (a : Addr) (s : State) : Answer :=
  runInstr (rmwAbs .ror) [0x6E, lo a, hi a] s

/-- ROR nn,X: R242, R131. -/
def execRorZpx (z : Byte) (s : State) : Answer :=
  runInstr (rmwZpx .ror) [0x76, z] s

/-- ROR hhll,X: R242, R137. -/
def execRorAbx (a : Addr) (s : State) : Answer :=
  runInstr (rmwAbsIdx .x .ror) [0x7E, lo a, hi a] s

end Sys2Proof.Machine
end

