-- ==== Sys2Proof/Machine/Stack.lean ====
section
/-! DEFINITION. Stack instructions (42_stack.md R200 to R203): one meaning for each constructor, its addressing mode's cycles over its operation. -/

namespace Sys2Proof.Machine

/-- PHP: R201, R150. -/
def execPhp (s : State) : Answer :=
  runInstr phpOps [0x08] s

/-- PLP: R203, R151. -/
def execPlp (s : State) : Answer :=
  runInstr plpOps [0x28] s

/-- PHA: R200, R150. -/
def execPha (s : State) : Answer :=
  runInstr phaOps [0x48] s

/-- PLA: R202, R151. -/
def execPla (s : State) : Answer :=
  runInstr plaOps [0x68] s

end Sys2Proof.Machine
end

