-- ==== Sys2Proof/Machine/Transfer.lean ====
section
/-! DEFINITION. Register transfers (41_load_store_transfer.md R176 to R181): one meaning for each constructor, its addressing mode's cycles over its operation. -/

namespace Sys2Proof.Machine

/-- TXA: R178, R124. -/
def execTxa (s : State) : Answer :=
  runInstr (impliedOps .txa) [0x8A] s

/-- TYA: R179, R124. -/
def execTya (s : State) : Answer :=
  runInstr (impliedOps .tya) [0x98] s

/-- TXS: R181, R124. -/
def execTxs (s : State) : Answer :=
  runInstr (impliedOps .txs) [0x9A] s

/-- TAY: R177, R124. -/
def execTay (s : State) : Answer :=
  runInstr (impliedOps .tay) [0xA8] s

/-- TAX: R176, R124. -/
def execTax (s : State) : Answer :=
  runInstr (impliedOps .tax) [0xAA] s

/-- TSX: R180, R124. -/
def execTsx (s : State) : Answer :=
  runInstr (impliedOps .tsx) [0xBA] s

end Sys2Proof.Machine
end

