-- ==== Sys2Proof/Machine/Undoc.lean ====
section
/-! DEFINITION. The other undocumented opcodes (45_undocumented.md R323, R328 to R345): one meaning for each constructor, its addressing mode's cycles over its operation. -/

namespace Sys2Proof.Machine

/-- JAM: R345, R153, illegal. -/
def execJam (op : Byte) (s : State) : Answer :=
  runIllegal jamOps [op] s

/-- NOP nn: R323, R126, illegal. -/
def execNopZp (op : Byte) (z : Byte) (s : State) : Answer :=
  runIllegal (readZp .nop) [op, z] s

/-- ANC #nn: R332, R125, illegal. -/
def execAncImm (op : Byte) (v : Byte) (s : State) : Answer :=
  runIllegal (readImm .anc) [op, v] s

/-- NOP hhll: R323, R132, illegal. -/
def execNopAbs (a : Addr) (s : State) : Answer :=
  runIllegal (readAbs .nop) [0x0C, lo a, hi a] s

/-- NOP nn,X: R323, R129, illegal. -/
def execNopZpx (op : Byte) (z : Byte) (s : State) : Answer :=
  runIllegal (readZpIdx .x .nop) [op, z] s

/-- NOP: R323, R124, illegal. -/
def execNopImp (op : Byte) (s : State) : Answer :=
  runIllegal (impliedOps .nop) [op] s

/-- NOP hhll,X: R323, R135, illegal. -/
def execNopAbx (op : Byte) (a : Addr) (s : State) : Answer :=
  runIllegal (readAbsIdx .x .nop) [op, lo a, hi a] s

/-- ALR #nn: R333, R125, illegal. -/
def execAlrImm (v : Byte) (s : State) : Answer :=
  runIllegal (readImm .alr) [0x4B, v] s

/-- ARR #nn: R334, R125, illegal. -/
def execArrImm (v : Byte) (s : State) : Answer :=
  runIllegal (readImm .arr) [0x6B, v] s

/-- NOP #nn: R323, R125, illegal. -/
def execNopImm (op : Byte) (v : Byte) (s : State) : Answer :=
  runIllegal (readImm .nop) [op, v] s

/-- SAX (nn,X): R328, R139, illegal. -/
def execSaxIzx (z : Byte) (s : State) : Answer :=
  runIllegal (writeIzx (.write .sax)) [0x83, z] s

/-- SAX nn: R328, R127, illegal. -/
def execSaxZp (z : Byte) (s : State) : Answer :=
  runIllegal (writeZp (.write .sax)) [0x87, z] s

/-- ANE #nn: R338, R125, illegal. -/
def execAneImm (v : Byte) (s : State) : Answer :=
  runIllegal (readImm .ane) [0x8B, v] s

/-- SAX hhll: R328, R133, illegal. -/
def execSaxAbs (a : Addr) (s : State) : Answer :=
  runIllegal (writeAbs (.write .sax)) [0x8F, lo a, hi a] s

/-- SHA (nn),Y: R341, R142, illegal. -/
def execShaIzy (z : Byte) (s : State) : Answer :=
  runIllegal (writeIzy (.writeUnstable .sha)) [0x93, z] s

/-- SAX nn,Y: R328, R130, illegal. -/
def execSaxZpy (z : Byte) (s : State) : Answer :=
  runIllegal (writeZpIdx .y (.write .sax)) [0x97, z] s

/-- TAS hhll,Y: R344, R136, illegal. -/
def execTasAby (a : Addr) (s : State) : Answer :=
  runIllegal (writeAbsIdx .y (.writeUnstable .tas)) [0x9B, lo a, hi a] s

/-- SHY hhll,X: R343, R136, illegal. -/
def execShyAbx (a : Addr) (s : State) : Answer :=
  runIllegal (writeAbsIdx .x (.writeUnstable .shy)) [0x9C, lo a, hi a] s

/-- SHX hhll,Y: R342, R136, illegal. -/
def execShxAby (a : Addr) (s : State) : Answer :=
  runIllegal (writeAbsIdx .y (.writeUnstable .shx)) [0x9E, lo a, hi a] s

/-- SHA hhll,Y: R341, R136, illegal. -/
def execShaAby (a : Addr) (s : State) : Answer :=
  runIllegal (writeAbsIdx .y (.writeUnstable .sha)) [0x9F, lo a, hi a] s

/-- LAX (nn,X): R329, R138, illegal. -/
def execLaxIzx (z : Byte) (s : State) : Answer :=
  runIllegal (readIzx .lax) [0xA3, z] s

/-- LAX nn: R329, R126, illegal. -/
def execLaxZp (z : Byte) (s : State) : Answer :=
  runIllegal (readZp .lax) [0xA7, z] s

/-- LXA #nn: R339, R125, illegal. -/
def execLxaImm (v : Byte) (s : State) : Answer :=
  runIllegal (readImm .lxa) [0xAB, v] s

/-- LAX hhll: R329, R132, illegal. -/
def execLaxAbs (a : Addr) (s : State) : Answer :=
  runIllegal (readAbs .lax) [0xAF, lo a, hi a] s

/-- LAX (nn),Y: R329, R141, illegal. -/
def execLaxIzy (z : Byte) (s : State) : Answer :=
  runIllegal (readIzy .lax) [0xB3, z] s

/-- LAX nn,Y: R329, R129, illegal. -/
def execLaxZpy (z : Byte) (s : State) : Answer :=
  runIllegal (readZpIdx .y .lax) [0xB7, z] s

/-- LAS hhll,Y: R337, R135, illegal. -/
def execLasAby (a : Addr) (s : State) : Answer :=
  runIllegal (readAbsIdx .y .las) [0xBB, lo a, hi a] s

/-- LAX hhll,Y: R329, R135, illegal. -/
def execLaxAby (a : Addr) (s : State) : Answer :=
  runIllegal (readAbsIdx .y .lax) [0xBF, lo a, hi a] s

/-- SBX #nn: R335, R125, illegal. -/
def execSbxImm (v : Byte) (s : State) : Answer :=
  runIllegal (readImm .sbx) [0xCB, v] s

/-- USBC #nn: R336, R125, illegal. -/
def execUsbcImm (v : Byte) (s : State) : Answer :=
  runIllegal (readImm .usbc) [0xEB, v] s

end Sys2Proof.Machine
end

