-- ==== Sys2Proof/Machine/UndocRmw.lean ====
section
/-! DEFINITION. The undocumented read-modify-write combinations (45_undocumented.md R324 to R331): one meaning for each constructor, its addressing mode's cycles over its operation. -/

namespace Sys2Proof.Machine

/-- SLO (nn,X): R324, R140, illegal. -/
def execSloIzx (z : Byte) (s : State) : Answer :=
  runIllegal (rmwIzx .slo) [0x03, z] s

/-- SLO nn: R324, R128, illegal. -/
def execSloZp (z : Byte) (s : State) : Answer :=
  runIllegal (rmwZp .slo) [0x07, z] s

/-- SLO hhll: R324, R134, illegal. -/
def execSloAbs (a : Addr) (s : State) : Answer :=
  runIllegal (rmwAbs .slo) [0x0F, lo a, hi a] s

/-- SLO (nn),Y: R324, R143, illegal. -/
def execSloIzy (z : Byte) (s : State) : Answer :=
  runIllegal (rmwIzy .slo) [0x13, z] s

/-- SLO nn,X: R324, R131, illegal. -/
def execSloZpx (z : Byte) (s : State) : Answer :=
  runIllegal (rmwZpx .slo) [0x17, z] s

/-- SLO hhll,Y: R324, R137, illegal. -/
def execSloAby (a : Addr) (s : State) : Answer :=
  runIllegal (rmwAbsIdx .y .slo) [0x1B, lo a, hi a] s

/-- SLO hhll,X: R324, R137, illegal. -/
def execSloAbx (a : Addr) (s : State) : Answer :=
  runIllegal (rmwAbsIdx .x .slo) [0x1F, lo a, hi a] s

/-- RLA (nn,X): R325, R140, illegal. -/
def execRlaIzx (z : Byte) (s : State) : Answer :=
  runIllegal (rmwIzx .rla) [0x23, z] s

/-- RLA nn: R325, R128, illegal. -/
def execRlaZp (z : Byte) (s : State) : Answer :=
  runIllegal (rmwZp .rla) [0x27, z] s

/-- RLA hhll: R325, R134, illegal. -/
def execRlaAbs (a : Addr) (s : State) : Answer :=
  runIllegal (rmwAbs .rla) [0x2F, lo a, hi a] s

/-- RLA (nn),Y: R325, R143, illegal. -/
def execRlaIzy (z : Byte) (s : State) : Answer :=
  runIllegal (rmwIzy .rla) [0x33, z] s

/-- RLA nn,X: R325, R131, illegal. -/
def execRlaZpx (z : Byte) (s : State) : Answer :=
  runIllegal (rmwZpx .rla) [0x37, z] s

/-- RLA hhll,Y: R325, R137, illegal. -/
def execRlaAby (a : Addr) (s : State) : Answer :=
  runIllegal (rmwAbsIdx .y .rla) [0x3B, lo a, hi a] s

/-- RLA hhll,X: R325, R137, illegal. -/
def execRlaAbx (a : Addr) (s : State) : Answer :=
  runIllegal (rmwAbsIdx .x .rla) [0x3F, lo a, hi a] s

/-- SRE (nn,X): R326, R140, illegal. -/
def execSreIzx (z : Byte) (s : State) : Answer :=
  runIllegal (rmwIzx .sre) [0x43, z] s

/-- SRE nn: R326, R128, illegal. -/
def execSreZp (z : Byte) (s : State) : Answer :=
  runIllegal (rmwZp .sre) [0x47, z] s

/-- SRE hhll: R326, R134, illegal. -/
def execSreAbs (a : Addr) (s : State) : Answer :=
  runIllegal (rmwAbs .sre) [0x4F, lo a, hi a] s

/-- SRE (nn),Y: R326, R143, illegal. -/
def execSreIzy (z : Byte) (s : State) : Answer :=
  runIllegal (rmwIzy .sre) [0x53, z] s

/-- SRE nn,X: R326, R131, illegal. -/
def execSreZpx (z : Byte) (s : State) : Answer :=
  runIllegal (rmwZpx .sre) [0x57, z] s

/-- SRE hhll,Y: R326, R137, illegal. -/
def execSreAby (a : Addr) (s : State) : Answer :=
  runIllegal (rmwAbsIdx .y .sre) [0x5B, lo a, hi a] s

/-- SRE hhll,X: R326, R137, illegal. -/
def execSreAbx (a : Addr) (s : State) : Answer :=
  runIllegal (rmwAbsIdx .x .sre) [0x5F, lo a, hi a] s

/-- RRA (nn,X): R327, R140, illegal. -/
def execRraIzx (z : Byte) (s : State) : Answer :=
  runIllegal (rmwIzx .rra) [0x63, z] s

/-- RRA nn: R327, R128, illegal. -/
def execRraZp (z : Byte) (s : State) : Answer :=
  runIllegal (rmwZp .rra) [0x67, z] s

/-- RRA hhll: R327, R134, illegal. -/
def execRraAbs (a : Addr) (s : State) : Answer :=
  runIllegal (rmwAbs .rra) [0x6F, lo a, hi a] s

/-- RRA (nn),Y: R327, R143, illegal. -/
def execRraIzy (z : Byte) (s : State) : Answer :=
  runIllegal (rmwIzy .rra) [0x73, z] s

/-- RRA nn,X: R327, R131, illegal. -/
def execRraZpx (z : Byte) (s : State) : Answer :=
  runIllegal (rmwZpx .rra) [0x77, z] s

/-- RRA hhll,Y: R327, R137, illegal. -/
def execRraAby (a : Addr) (s : State) : Answer :=
  runIllegal (rmwAbsIdx .y .rra) [0x7B, lo a, hi a] s

/-- RRA hhll,X: R327, R137, illegal. -/
def execRraAbx (a : Addr) (s : State) : Answer :=
  runIllegal (rmwAbsIdx .x .rra) [0x7F, lo a, hi a] s

/-- DCP (nn,X): R330, R140, illegal. -/
def execDcpIzx (z : Byte) (s : State) : Answer :=
  runIllegal (rmwIzx .dcp) [0xC3, z] s

/-- DCP nn: R330, R128, illegal. -/
def execDcpZp (z : Byte) (s : State) : Answer :=
  runIllegal (rmwZp .dcp) [0xC7, z] s

/-- DCP hhll: R330, R134, illegal. -/
def execDcpAbs (a : Addr) (s : State) : Answer :=
  runIllegal (rmwAbs .dcp) [0xCF, lo a, hi a] s

/-- DCP (nn),Y: R330, R143, illegal. -/
def execDcpIzy (z : Byte) (s : State) : Answer :=
  runIllegal (rmwIzy .dcp) [0xD3, z] s

/-- DCP nn,X: R330, R131, illegal. -/
def execDcpZpx (z : Byte) (s : State) : Answer :=
  runIllegal (rmwZpx .dcp) [0xD7, z] s

/-- DCP hhll,Y: R330, R137, illegal. -/
def execDcpAby (a : Addr) (s : State) : Answer :=
  runIllegal (rmwAbsIdx .y .dcp) [0xDB, lo a, hi a] s

/-- DCP hhll,X: R330, R137, illegal. -/
def execDcpAbx (a : Addr) (s : State) : Answer :=
  runIllegal (rmwAbsIdx .x .dcp) [0xDF, lo a, hi a] s

/-- ISC (nn,X): R331, R140, illegal. -/
def execIscIzx (z : Byte) (s : State) : Answer :=
  runIllegal (rmwIzx .isc) [0xE3, z] s

/-- ISC nn: R331, R128, illegal. -/
def execIscZp (z : Byte) (s : State) : Answer :=
  runIllegal (rmwZp .isc) [0xE7, z] s

/-- ISC hhll: R331, R134, illegal. -/
def execIscAbs (a : Addr) (s : State) : Answer :=
  runIllegal (rmwAbs .isc) [0xEF, lo a, hi a] s

/-- ISC (nn),Y: R331, R143, illegal. -/
def execIscIzy (z : Byte) (s : State) : Answer :=
  runIllegal (rmwIzy .isc) [0xF3, z] s

/-- ISC nn,X: R331, R131, illegal. -/
def execIscZpx (z : Byte) (s : State) : Answer :=
  runIllegal (rmwZpx .isc) [0xF7, z] s

/-- ISC hhll,Y: R331, R137, illegal. -/
def execIscAby (a : Addr) (s : State) : Answer :=
  runIllegal (rmwAbsIdx .y .isc) [0xFB, lo a, hi a] s

/-- ISC hhll,X: R331, R137, illegal. -/
def execIscAbx (a : Addr) (s : State) : Answer :=
  runIllegal (rmwAbsIdx .x .isc) [0xFF, lo a, hi a] s

end Sys2Proof.Machine
end

