-- ==== Sys2Proof/Machine/Dispatch.lean ====
section
/-! DEFINITION. exec: one arm for each constructor of Instr, a direct call of its meaning. -/

namespace Sys2Proof.Machine

def exec (i : Instr) (s : State) : Host.Outcome State Fault Refusal :=
  match i with
  | .brk sig => Sys2Proof.Machine.execBrk sig s
  | .oraIzx z => Sys2Proof.Machine.execOraIzx z s
  | .jam op => Sys2Proof.Machine.execJam op s
  | .sloIzx z => Sys2Proof.Machine.execSloIzx z s
  | .nopZp op z => Sys2Proof.Machine.execNopZp op z s
  | .oraZp z => Sys2Proof.Machine.execOraZp z s
  | .aslZp z => Sys2Proof.Machine.execAslZp z s
  | .sloZp z => Sys2Proof.Machine.execSloZp z s
  | .php => Sys2Proof.Machine.execPhp s
  | .oraImm v => Sys2Proof.Machine.execOraImm v s
  | .aslAcc => Sys2Proof.Machine.execAslAcc s
  | .ancImm op v => Sys2Proof.Machine.execAncImm op v s
  | .nopAbs a => Sys2Proof.Machine.execNopAbs a s
  | .oraAbs a => Sys2Proof.Machine.execOraAbs a s
  | .aslAbs a => Sys2Proof.Machine.execAslAbs a s
  | .sloAbs a => Sys2Proof.Machine.execSloAbs a s
  | .bpl o => Sys2Proof.Machine.execBpl o s
  | .oraIzy z => Sys2Proof.Machine.execOraIzy z s
  | .sloIzy z => Sys2Proof.Machine.execSloIzy z s
  | .nopZpx op z => Sys2Proof.Machine.execNopZpx op z s
  | .oraZpx z => Sys2Proof.Machine.execOraZpx z s
  | .aslZpx z => Sys2Proof.Machine.execAslZpx z s
  | .sloZpx z => Sys2Proof.Machine.execSloZpx z s
  | .clc => Sys2Proof.Machine.execClc s
  | .oraAby a => Sys2Proof.Machine.execOraAby a s
  | .nopImp op => Sys2Proof.Machine.execNopImp op s
  | .sloAby a => Sys2Proof.Machine.execSloAby a s
  | .nopAbx op a => Sys2Proof.Machine.execNopAbx op a s
  | .oraAbx a => Sys2Proof.Machine.execOraAbx a s
  | .aslAbx a => Sys2Proof.Machine.execAslAbx a s
  | .sloAbx a => Sys2Proof.Machine.execSloAbx a s
  | .jsr a => Sys2Proof.Machine.execJsr a s
  | .andIzx z => Sys2Proof.Machine.execAndIzx z s
  | .rlaIzx z => Sys2Proof.Machine.execRlaIzx z s
  | .bitZp z => Sys2Proof.Machine.execBitZp z s
  | .andZp z => Sys2Proof.Machine.execAndZp z s
  | .rolZp z => Sys2Proof.Machine.execRolZp z s
  | .rlaZp z => Sys2Proof.Machine.execRlaZp z s
  | .plp => Sys2Proof.Machine.execPlp s
  | .andImm v => Sys2Proof.Machine.execAndImm v s
  | .rolAcc => Sys2Proof.Machine.execRolAcc s
  | .bitAbs a => Sys2Proof.Machine.execBitAbs a s
  | .andAbs a => Sys2Proof.Machine.execAndAbs a s
  | .rolAbs a => Sys2Proof.Machine.execRolAbs a s
  | .rlaAbs a => Sys2Proof.Machine.execRlaAbs a s
  | .bmi o => Sys2Proof.Machine.execBmi o s
  | .andIzy z => Sys2Proof.Machine.execAndIzy z s
  | .rlaIzy z => Sys2Proof.Machine.execRlaIzy z s
  | .andZpx z => Sys2Proof.Machine.execAndZpx z s
  | .rolZpx z => Sys2Proof.Machine.execRolZpx z s
  | .rlaZpx z => Sys2Proof.Machine.execRlaZpx z s
  | .sec => Sys2Proof.Machine.execSec s
  | .andAby a => Sys2Proof.Machine.execAndAby a s
  | .rlaAby a => Sys2Proof.Machine.execRlaAby a s
  | .andAbx a => Sys2Proof.Machine.execAndAbx a s
  | .rolAbx a => Sys2Proof.Machine.execRolAbx a s
  | .rlaAbx a => Sys2Proof.Machine.execRlaAbx a s
  | .rti => Sys2Proof.Machine.execRti s
  | .eorIzx z => Sys2Proof.Machine.execEorIzx z s
  | .sreIzx z => Sys2Proof.Machine.execSreIzx z s
  | .eorZp z => Sys2Proof.Machine.execEorZp z s
  | .lsrZp z => Sys2Proof.Machine.execLsrZp z s
  | .sreZp z => Sys2Proof.Machine.execSreZp z s
  | .pha => Sys2Proof.Machine.execPha s
  | .eorImm v => Sys2Proof.Machine.execEorImm v s
  | .lsrAcc => Sys2Proof.Machine.execLsrAcc s
  | .alrImm v => Sys2Proof.Machine.execAlrImm v s
  | .jmpAbs a => Sys2Proof.Machine.execJmpAbs a s
  | .eorAbs a => Sys2Proof.Machine.execEorAbs a s
  | .lsrAbs a => Sys2Proof.Machine.execLsrAbs a s
  | .sreAbs a => Sys2Proof.Machine.execSreAbs a s
  | .bvc o => Sys2Proof.Machine.execBvc o s
  | .eorIzy z => Sys2Proof.Machine.execEorIzy z s
  | .sreIzy z => Sys2Proof.Machine.execSreIzy z s
  | .eorZpx z => Sys2Proof.Machine.execEorZpx z s
  | .lsrZpx z => Sys2Proof.Machine.execLsrZpx z s
  | .sreZpx z => Sys2Proof.Machine.execSreZpx z s
  | .cli => Sys2Proof.Machine.execCli s
  | .eorAby a => Sys2Proof.Machine.execEorAby a s
  | .sreAby a => Sys2Proof.Machine.execSreAby a s
  | .eorAbx a => Sys2Proof.Machine.execEorAbx a s
  | .lsrAbx a => Sys2Proof.Machine.execLsrAbx a s
  | .sreAbx a => Sys2Proof.Machine.execSreAbx a s
  | .rts => Sys2Proof.Machine.execRts s
  | .adcIzx z => Sys2Proof.Machine.execAdcIzx z s
  | .rraIzx z => Sys2Proof.Machine.execRraIzx z s
  | .adcZp z => Sys2Proof.Machine.execAdcZp z s
  | .rorZp z => Sys2Proof.Machine.execRorZp z s
  | .rraZp z => Sys2Proof.Machine.execRraZp z s
  | .pla => Sys2Proof.Machine.execPla s
  | .adcImm v => Sys2Proof.Machine.execAdcImm v s
  | .rorAcc => Sys2Proof.Machine.execRorAcc s
  | .arrImm v => Sys2Proof.Machine.execArrImm v s
  | .jmpInd a => Sys2Proof.Machine.execJmpInd a s
  | .adcAbs a => Sys2Proof.Machine.execAdcAbs a s
  | .rorAbs a => Sys2Proof.Machine.execRorAbs a s
  | .rraAbs a => Sys2Proof.Machine.execRraAbs a s
  | .bvs o => Sys2Proof.Machine.execBvs o s
  | .adcIzy z => Sys2Proof.Machine.execAdcIzy z s
  | .rraIzy z => Sys2Proof.Machine.execRraIzy z s
  | .adcZpx z => Sys2Proof.Machine.execAdcZpx z s
  | .rorZpx z => Sys2Proof.Machine.execRorZpx z s
  | .rraZpx z => Sys2Proof.Machine.execRraZpx z s
  | .sei => Sys2Proof.Machine.execSei s
  | .adcAby a => Sys2Proof.Machine.execAdcAby a s
  | .rraAby a => Sys2Proof.Machine.execRraAby a s
  | .adcAbx a => Sys2Proof.Machine.execAdcAbx a s
  | .rorAbx a => Sys2Proof.Machine.execRorAbx a s
  | .rraAbx a => Sys2Proof.Machine.execRraAbx a s
  | .nopImm op v => Sys2Proof.Machine.execNopImm op v s
  | .staIzx z => Sys2Proof.Machine.execStaIzx z s
  | .saxIzx z => Sys2Proof.Machine.execSaxIzx z s
  | .styZp z => Sys2Proof.Machine.execStyZp z s
  | .staZp z => Sys2Proof.Machine.execStaZp z s
  | .stxZp z => Sys2Proof.Machine.execStxZp z s
  | .saxZp z => Sys2Proof.Machine.execSaxZp z s
  | .dey => Sys2Proof.Machine.execDey s
  | .txa => Sys2Proof.Machine.execTxa s
  | .aneImm v => Sys2Proof.Machine.execAneImm v s
  | .styAbs a => Sys2Proof.Machine.execStyAbs a s
  | .staAbs a => Sys2Proof.Machine.execStaAbs a s
  | .stxAbs a => Sys2Proof.Machine.execStxAbs a s
  | .saxAbs a => Sys2Proof.Machine.execSaxAbs a s
  | .bcc o => Sys2Proof.Machine.execBcc o s
  | .staIzy z => Sys2Proof.Machine.execStaIzy z s
  | .shaIzy z => Sys2Proof.Machine.execShaIzy z s
  | .styZpx z => Sys2Proof.Machine.execStyZpx z s
  | .staZpx z => Sys2Proof.Machine.execStaZpx z s
  | .stxZpy z => Sys2Proof.Machine.execStxZpy z s
  | .saxZpy z => Sys2Proof.Machine.execSaxZpy z s
  | .tya => Sys2Proof.Machine.execTya s
  | .staAby a => Sys2Proof.Machine.execStaAby a s
  | .txs => Sys2Proof.Machine.execTxs s
  | .tasAby a => Sys2Proof.Machine.execTasAby a s
  | .shyAbx a => Sys2Proof.Machine.execShyAbx a s
  | .staAbx a => Sys2Proof.Machine.execStaAbx a s
  | .shxAby a => Sys2Proof.Machine.execShxAby a s
  | .shaAby a => Sys2Proof.Machine.execShaAby a s
  | .ldyImm v => Sys2Proof.Machine.execLdyImm v s
  | .ldaIzx z => Sys2Proof.Machine.execLdaIzx z s
  | .ldxImm v => Sys2Proof.Machine.execLdxImm v s
  | .laxIzx z => Sys2Proof.Machine.execLaxIzx z s
  | .ldyZp z => Sys2Proof.Machine.execLdyZp z s
  | .ldaZp z => Sys2Proof.Machine.execLdaZp z s
  | .ldxZp z => Sys2Proof.Machine.execLdxZp z s
  | .laxZp z => Sys2Proof.Machine.execLaxZp z s
  | .tay => Sys2Proof.Machine.execTay s
  | .ldaImm v => Sys2Proof.Machine.execLdaImm v s
  | .tax => Sys2Proof.Machine.execTax s
  | .lxaImm v => Sys2Proof.Machine.execLxaImm v s
  | .ldyAbs a => Sys2Proof.Machine.execLdyAbs a s
  | .ldaAbs a => Sys2Proof.Machine.execLdaAbs a s
  | .ldxAbs a => Sys2Proof.Machine.execLdxAbs a s
  | .laxAbs a => Sys2Proof.Machine.execLaxAbs a s
  | .bcs o => Sys2Proof.Machine.execBcs o s
  | .ldaIzy z => Sys2Proof.Machine.execLdaIzy z s
  | .laxIzy z => Sys2Proof.Machine.execLaxIzy z s
  | .ldyZpx z => Sys2Proof.Machine.execLdyZpx z s
  | .ldaZpx z => Sys2Proof.Machine.execLdaZpx z s
  | .ldxZpy z => Sys2Proof.Machine.execLdxZpy z s
  | .laxZpy z => Sys2Proof.Machine.execLaxZpy z s
  | .clv => Sys2Proof.Machine.execClv s
  | .ldaAby a => Sys2Proof.Machine.execLdaAby a s
  | .tsx => Sys2Proof.Machine.execTsx s
  | .lasAby a => Sys2Proof.Machine.execLasAby a s
  | .ldyAbx a => Sys2Proof.Machine.execLdyAbx a s
  | .ldaAbx a => Sys2Proof.Machine.execLdaAbx a s
  | .ldxAby a => Sys2Proof.Machine.execLdxAby a s
  | .laxAby a => Sys2Proof.Machine.execLaxAby a s
  | .cpyImm v => Sys2Proof.Machine.execCpyImm v s
  | .cmpIzx z => Sys2Proof.Machine.execCmpIzx z s
  | .dcpIzx z => Sys2Proof.Machine.execDcpIzx z s
  | .cpyZp z => Sys2Proof.Machine.execCpyZp z s
  | .cmpZp z => Sys2Proof.Machine.execCmpZp z s
  | .decZp z => Sys2Proof.Machine.execDecZp z s
  | .dcpZp z => Sys2Proof.Machine.execDcpZp z s
  | .iny => Sys2Proof.Machine.execIny s
  | .cmpImm v => Sys2Proof.Machine.execCmpImm v s
  | .dex => Sys2Proof.Machine.execDex s
  | .sbxImm v => Sys2Proof.Machine.execSbxImm v s
  | .cpyAbs a => Sys2Proof.Machine.execCpyAbs a s
  | .cmpAbs a => Sys2Proof.Machine.execCmpAbs a s
  | .decAbs a => Sys2Proof.Machine.execDecAbs a s
  | .dcpAbs a => Sys2Proof.Machine.execDcpAbs a s
  | .bne o => Sys2Proof.Machine.execBne o s
  | .cmpIzy z => Sys2Proof.Machine.execCmpIzy z s
  | .dcpIzy z => Sys2Proof.Machine.execDcpIzy z s
  | .cmpZpx z => Sys2Proof.Machine.execCmpZpx z s
  | .decZpx z => Sys2Proof.Machine.execDecZpx z s
  | .dcpZpx z => Sys2Proof.Machine.execDcpZpx z s
  | .cld => Sys2Proof.Machine.execCld s
  | .cmpAby a => Sys2Proof.Machine.execCmpAby a s
  | .dcpAby a => Sys2Proof.Machine.execDcpAby a s
  | .cmpAbx a => Sys2Proof.Machine.execCmpAbx a s
  | .decAbx a => Sys2Proof.Machine.execDecAbx a s
  | .dcpAbx a => Sys2Proof.Machine.execDcpAbx a s
  | .cpxImm v => Sys2Proof.Machine.execCpxImm v s
  | .sbcIzx z => Sys2Proof.Machine.execSbcIzx z s
  | .iscIzx z => Sys2Proof.Machine.execIscIzx z s
  | .cpxZp z => Sys2Proof.Machine.execCpxZp z s
  | .sbcZp z => Sys2Proof.Machine.execSbcZp z s
  | .incZp z => Sys2Proof.Machine.execIncZp z s
  | .iscZp z => Sys2Proof.Machine.execIscZp z s
  | .inx => Sys2Proof.Machine.execInx s
  | .sbcImm v => Sys2Proof.Machine.execSbcImm v s
  | .nop => Sys2Proof.Machine.execNop s
  | .usbcImm v => Sys2Proof.Machine.execUsbcImm v s
  | .cpxAbs a => Sys2Proof.Machine.execCpxAbs a s
  | .sbcAbs a => Sys2Proof.Machine.execSbcAbs a s
  | .incAbs a => Sys2Proof.Machine.execIncAbs a s
  | .iscAbs a => Sys2Proof.Machine.execIscAbs a s
  | .beq o => Sys2Proof.Machine.execBeq o s
  | .sbcIzy z => Sys2Proof.Machine.execSbcIzy z s
  | .iscIzy z => Sys2Proof.Machine.execIscIzy z s
  | .sbcZpx z => Sys2Proof.Machine.execSbcZpx z s
  | .incZpx z => Sys2Proof.Machine.execIncZpx z s
  | .iscZpx z => Sys2Proof.Machine.execIscZpx z s
  | .sed => Sys2Proof.Machine.execSed s
  | .sbcAby a => Sys2Proof.Machine.execSbcAby a s
  | .iscAby a => Sys2Proof.Machine.execIscAby a s
  | .sbcAbx a => Sys2Proof.Machine.execSbcAbx a s
  | .incAbx a => Sys2Proof.Machine.execIncAbx a s
  | .iscAbx a => Sys2Proof.Machine.execIscAbx a s

end Sys2Proof.Machine
end

