-- ==== Sys2Proof/Machine/Tick.lean ====
section
/-! DEFINITION. One sequence and its boundary (60_exceptions.md R400): `tick()`, and the debugger's commands, two of
which run cycles themselves (R405, R432). -/

namespace Sys2Proof.Machine

/-- The instruction at PC: the decoder on the bytes its read cycles deliver, then exec. -/
def runNext (s : State) : Answer :=
  match decode (fetchBytes s) with
  | .ok (i, _) => exec i s
  | .error _ => .fault (.undecodable (busValue s.pc s))

/-- One sequence to its end (R120, R400): a halted cycle, the interrupt entry if the last poll chose one, the
instruction at PC, or what is left of a sequence `run_cycles` stopped inside (log 25). -/
def runSequence (s : State) : Answer :=
  if s.halted then .next (haltedCycle s)
  else if s.seq ≠ .fetch then .next (runOps s.queue [] s)
  else if s.intNext ≠ .none then .next (takeInterrupt s)
  else runNext s

/-- A sequence, then `boundary_check()`. -/
def runAndCheck (s : State) : Answer :=
  match runSequence s with
  | .next t => .next (boundaryCheck t)
  | .fault f => .fault f
  | .refused r => .refused r

/-- `tick()` (R400). -/
def tick (s : State) : Answer :=
  if s.runState = .paused then .next s else runAndCheck s

/-- The effect of an accepted command (R401 to R411, R432). -/
def perform (c : Command) (s : State) : Answer :=
  match c with
  | .continueExecution => .next (startRun .running s)
  | .pause => .next (requestPause s)
  | .stepInstruction => tick (startRun .steppingInstruction s)
  | .stepFrame => .next { startRun .steppingFrame s with frameSeen := false }
  | .reset => .next (resetSequence s)
  | .setRegisters r => .next (setRegisters r s)
  | .write a v => .next (debugWrite a v s)
  | .addBreakpoint a condition => .next (addBreakpoint a condition s)
  | .removeBreakpoint id => .next (removeBreakpoint id s)
  | .inspect _ _ | .memoryWindow _ _ | .disassembly _ _ => .next s

/-- A command: CallerMisuse changes nothing (R377). -/
def command (c : Command) (s : State) : Answer :=
  match misuse c s with
  | some _ => .next s
  | none => perform c s

/-- What the host does next (log 20): the next entry of its script, a command or a tick; with none left, a tick. -/
def hostStep (s : State) : Answer :=
  match s.commands with
  | some c :: rest => command c { s with commands := rest }
  | none :: rest => tick { s with commands := rest }
  | [] => tick s

/-- The machine made ready to fetch at PC: running, at a boundary, with no interrupt, fault or command waiting. -/
def ready (s : State) : State :=
  { s with
    seq := .fetch
    queue := []
    halted := false
    intNext := .none
    fault := none
    runState := .running
    pauseRequested := false
    stopReason := .none
    commands := [] }

end Sys2Proof.Machine
end

