-- ==== Sys2Proof/Machine/Step.lean ====
section
/-! DEFINITION. One step of the machine: what the host does next, a command or a tick of one sequence (log 1). -/

namespace Sys2Proof.Machine

/-- One step (R400). -/
def step (s : State) : Host.Outcome State Fault Refusal := hostStep s

/-- The state with an instruction stored where the next step fetches, and the machine running (log 15). -/
def State.withFetchWord (s : State) (nbits w : Nat) : State :=
  loadBytes s.pc (tableBytes nbits w) (ready s)

end Sys2Proof.Machine
end

