-- ==== Sys2Proof/Machine/Clock.lean ====
section
/-! DEFINITION. The CPU one cycle at a time (40_sequencer.md R120; 60_exceptions.md R414): `step_cycle()` over the
sequence each opcode selects (30_encoding.md R96), and `run_cycles(N)`. -/

namespace Sys2Proof.Machine

/-- The sequences of row 0x of the opcode matrix (R95, R96). -/
def sequenceRow0 (n : Nat) : List MicroOp :=
  match n with
  | 0 => brkOps
  | 1 => readIzx .ora
  | 2 => jamOps
  | 3 => rmwIzx .slo
  | 4 => readZp .nop
  | 5 => readZp .ora
  | 6 => rmwZp .asl
  | 7 => rmwZp .slo
  | 8 => phpOps
  | 9 => readImm .ora
  | 10 => impliedOps .aslA
  | 11 => readImm .anc
  | 12 => readAbs .nop
  | 13 => readAbs .ora
  | 14 => rmwAbs .asl
  | _ => rmwAbs .slo

/-- The sequences of row 1x of the opcode matrix (R95, R96). -/
def sequenceRow1 (n : Nat) : List MicroOp :=
  match n with
  | 0 => branchOps .pl
  | 1 => readIzy .ora
  | 2 => jamOps
  | 3 => rmwIzy .slo
  | 4 => readZpIdx .x .nop
  | 5 => readZpIdx .x .ora
  | 6 => rmwZpx .asl
  | 7 => rmwZpx .slo
  | 8 => impliedOps .clc
  | 9 => readAbsIdx .y .ora
  | 10 => impliedOps .nop
  | 11 => rmwAbsIdx .y .slo
  | 12 => readAbsIdx .x .nop
  | 13 => readAbsIdx .x .ora
  | 14 => rmwAbsIdx .x .asl
  | _ => rmwAbsIdx .x .slo

/-- The sequences of row 2x of the opcode matrix (R95, R96). -/
def sequenceRow2 (n : Nat) : List MicroOp :=
  match n with
  | 0 => jsrOps
  | 1 => readIzx .and
  | 2 => jamOps
  | 3 => rmwIzx .rla
  | 4 => readZp .bit
  | 5 => readZp .and
  | 6 => rmwZp .rol
  | 7 => rmwZp .rla
  | 8 => plpOps
  | 9 => readImm .and
  | 10 => impliedOps .rolA
  | 11 => readImm .anc
  | 12 => readAbs .bit
  | 13 => readAbs .and
  | 14 => rmwAbs .rol
  | _ => rmwAbs .rla

/-- The sequences of row 3x of the opcode matrix (R95, R96). -/
def sequenceRow3 (n : Nat) : List MicroOp :=
  match n with
  | 0 => branchOps .mi
  | 1 => readIzy .and
  | 2 => jamOps
  | 3 => rmwIzy .rla
  | 4 => readZpIdx .x .nop
  | 5 => readZpIdx .x .and
  | 6 => rmwZpx .rol
  | 7 => rmwZpx .rla
  | 8 => impliedOps .sec
  | 9 => readAbsIdx .y .and
  | 10 => impliedOps .nop
  | 11 => rmwAbsIdx .y .rla
  | 12 => readAbsIdx .x .nop
  | 13 => readAbsIdx .x .and
  | 14 => rmwAbsIdx .x .rol
  | _ => rmwAbsIdx .x .rla

/-- The sequences of row 4x of the opcode matrix (R95, R96). -/
def sequenceRow4 (n : Nat) : List MicroOp :=
  match n with
  | 0 => rtiOps
  | 1 => readIzx .eor
  | 2 => jamOps
  | 3 => rmwIzx .sre
  | 4 => readZp .nop
  | 5 => readZp .eor
  | 6 => rmwZp .lsr
  | 7 => rmwZp .sre
  | 8 => phaOps
  | 9 => readImm .eor
  | 10 => impliedOps .lsrA
  | 11 => readImm .alr
  | 12 => jmpAbsOps
  | 13 => readAbs .eor
  | 14 => rmwAbs .lsr
  | _ => rmwAbs .sre

/-- The sequences of row 5x of the opcode matrix (R95, R96). -/
def sequenceRow5 (n : Nat) : List MicroOp :=
  match n with
  | 0 => branchOps .vc
  | 1 => readIzy .eor
  | 2 => jamOps
  | 3 => rmwIzy .sre
  | 4 => readZpIdx .x .nop
  | 5 => readZpIdx .x .eor
  | 6 => rmwZpx .lsr
  | 7 => rmwZpx .sre
  | 8 => impliedOps .cli
  | 9 => readAbsIdx .y .eor
  | 10 => impliedOps .nop
  | 11 => rmwAbsIdx .y .sre
  | 12 => readAbsIdx .x .nop
  | 13 => readAbsIdx .x .eor
  | 14 => rmwAbsIdx .x .lsr
  | _ => rmwAbsIdx .x .sre

/-- The sequences of row 6x of the opcode matrix (R95, R96). -/
def sequenceRow6 (n : Nat) : List MicroOp :=
  match n with
  | 0 => rtsOps
  | 1 => readIzx .adc
  | 2 => jamOps
  | 3 => rmwIzx .rra
  | 4 => readZp .nop
  | 5 => readZp .adc
  | 6 => rmwZp .ror
  | 7 => rmwZp .rra
  | 8 => plaOps
  | 9 => readImm .adc
  | 10 => impliedOps .rorA
  | 11 => readImm .arr
  | 12 => jmpIndOps
  | 13 => readAbs .adc
  | 14 => rmwAbs .ror
  | _ => rmwAbs .rra

/-- The sequences of row 7x of the opcode matrix (R95, R96). -/
def sequenceRow7 (n : Nat) : List MicroOp :=
  match n with
  | 0 => branchOps .vs
  | 1 => readIzy .adc
  | 2 => jamOps
  | 3 => rmwIzy .rra
  | 4 => readZpIdx .x .nop
  | 5 => readZpIdx .x .adc
  | 6 => rmwZpx .ror
  | 7 => rmwZpx .rra
  | 8 => impliedOps .sei
  | 9 => readAbsIdx .y .adc
  | 10 => impliedOps .nop
  | 11 => rmwAbsIdx .y .rra
  | 12 => readAbsIdx .x .nop
  | 13 => readAbsIdx .x .adc
  | 14 => rmwAbsIdx .x .ror
  | _ => rmwAbsIdx .x .rra

/-- The sequences of row 8x of the opcode matrix (R95, R96). -/
def sequenceRow8 (n : Nat) : List MicroOp :=
  match n with
  | 0 => readImm .nop
  | 1 => writeIzx (.write .sta)
  | 2 => readImm .nop
  | 3 => writeIzx (.write .sax)
  | 4 => writeZp (.write .sty)
  | 5 => writeZp (.write .sta)
  | 6 => writeZp (.write .stx)
  | 7 => writeZp (.write .sax)
  | 8 => impliedOps .dey
  | 9 => readImm .nop
  | 10 => impliedOps .txa
  | 11 => readImm .ane
  | 12 => writeAbs (.write .sty)
  | 13 => writeAbs (.write .sta)
  | 14 => writeAbs (.write .stx)
  | _ => writeAbs (.write .sax)

/-- The sequences of row 9x of the opcode matrix (R95, R96). -/
def sequenceRow9 (n : Nat) : List MicroOp :=
  match n with
  | 0 => branchOps .cc
  | 1 => writeIzy (.write .sta)
  | 2 => jamOps
  | 3 => writeIzy (.writeUnstable .sha)
  | 4 => writeZpIdx .x (.write .sty)
  | 5 => writeZpIdx .x (.write .sta)
  | 6 => writeZpIdx .y (.write .stx)
  | 7 => writeZpIdx .y (.write .sax)
  | 8 => impliedOps .tya
  | 9 => writeAbsIdx .y (.write .sta)
  | 10 => impliedOps .txs
  | 11 => writeAbsIdx .y (.writeUnstable .tas)
  | 12 => writeAbsIdx .x (.writeUnstable .shy)
  | 13 => writeAbsIdx .x (.write .sta)
  | 14 => writeAbsIdx .y (.writeUnstable .shx)
  | _ => writeAbsIdx .y (.writeUnstable .sha)

/-- The sequences of row Ax of the opcode matrix (R95, R96). -/
def sequenceRowA (n : Nat) : List MicroOp :=
  match n with
  | 0 => readImm .ldy
  | 1 => readIzx .lda
  | 2 => readImm .ldx
  | 3 => readIzx .lax
  | 4 => readZp .ldy
  | 5 => readZp .lda
  | 6 => readZp .ldx
  | 7 => readZp .lax
  | 8 => impliedOps .tay
  | 9 => readImm .lda
  | 10 => impliedOps .tax
  | 11 => readImm .lxa
  | 12 => readAbs .ldy
  | 13 => readAbs .lda
  | 14 => readAbs .ldx
  | _ => readAbs .lax

/-- The sequences of row Bx of the opcode matrix (R95, R96). -/
def sequenceRowB (n : Nat) : List MicroOp :=
  match n with
  | 0 => branchOps .cs
  | 1 => readIzy .lda
  | 2 => jamOps
  | 3 => readIzy .lax
  | 4 => readZpIdx .x .ldy
  | 5 => readZpIdx .x .lda
  | 6 => readZpIdx .y .ldx
  | 7 => readZpIdx .y .lax
  | 8 => impliedOps .clv
  | 9 => readAbsIdx .y .lda
  | 10 => impliedOps .tsx
  | 11 => readAbsIdx .y .las
  | 12 => readAbsIdx .x .ldy
  | 13 => readAbsIdx .x .lda
  | 14 => readAbsIdx .y .ldx
  | _ => readAbsIdx .y .lax

/-- The sequences of row Cx of the opcode matrix (R95, R96). -/
def sequenceRowC (n : Nat) : List MicroOp :=
  match n with
  | 0 => readImm .cpy
  | 1 => readIzx .cmp
  | 2 => readImm .nop
  | 3 => rmwIzx .dcp
  | 4 => readZp .cpy
  | 5 => readZp .cmp
  | 6 => rmwZp .dec
  | 7 => rmwZp .dcp
  | 8 => impliedOps .iny
  | 9 => readImm .cmp
  | 10 => impliedOps .dex
  | 11 => readImm .sbx
  | 12 => readAbs .cpy
  | 13 => readAbs .cmp
  | 14 => rmwAbs .dec
  | _ => rmwAbs .dcp

/-- The sequences of row Dx of the opcode matrix (R95, R96). -/
def sequenceRowD (n : Nat) : List MicroOp :=
  match n with
  | 0 => branchOps .ne
  | 1 => readIzy .cmp
  | 2 => jamOps
  | 3 => rmwIzy .dcp
  | 4 => readZpIdx .x .nop
  | 5 => readZpIdx .x .cmp
  | 6 => rmwZpx .dec
  | 7 => rmwZpx .dcp
  | 8 => impliedOps .cld
  | 9 => readAbsIdx .y .cmp
  | 10 => impliedOps .nop
  | 11 => rmwAbsIdx .y .dcp
  | 12 => readAbsIdx .x .nop
  | 13 => readAbsIdx .x .cmp
  | 14 => rmwAbsIdx .x .dec
  | _ => rmwAbsIdx .x .dcp

/-- The sequences of row Ex of the opcode matrix (R95, R96). -/
def sequenceRowE (n : Nat) : List MicroOp :=
  match n with
  | 0 => readImm .cpx
  | 1 => readIzx .sbc
  | 2 => readImm .nop
  | 3 => rmwIzx .isc
  | 4 => readZp .cpx
  | 5 => readZp .sbc
  | 6 => rmwZp .inc
  | 7 => rmwZp .isc
  | 8 => impliedOps .inx
  | 9 => readImm .sbc
  | 10 => impliedOps .nop
  | 11 => readImm .usbc
  | 12 => readAbs .cpx
  | 13 => readAbs .sbc
  | 14 => rmwAbs .inc
  | _ => rmwAbs .isc

/-- The sequences of row Fx of the opcode matrix (R95, R96). -/
def sequenceRowF (n : Nat) : List MicroOp :=
  match n with
  | 0 => branchOps .eq
  | 1 => readIzy .sbc
  | 2 => jamOps
  | 3 => rmwIzy .isc
  | 4 => readZpIdx .x .nop
  | 5 => readZpIdx .x .sbc
  | 6 => rmwZpx .inc
  | 7 => rmwZpx .isc
  | 8 => impliedOps .sed
  | 9 => readAbsIdx .y .sbc
  | 10 => impliedOps .nop
  | 11 => rmwAbsIdx .y .isc
  | 12 => readAbsIdx .x .nop
  | 13 => readAbsIdx .x .sbc
  | 14 => rmwAbsIdx .x .inc
  | _ => rmwAbsIdx .x .isc

/-- The sequence of an opcode under `emulate` (R121, R322). -/
def emulatedSequence (op : Byte) : List MicroOp :=
  match op.toNat / 16 with
  | 0 => sequenceRow0 (op.toNat % 16)
  | 1 => sequenceRow1 (op.toNat % 16)
  | 2 => sequenceRow2 (op.toNat % 16)
  | 3 => sequenceRow3 (op.toNat % 16)
  | 4 => sequenceRow4 (op.toNat % 16)
  | 5 => sequenceRow5 (op.toNat % 16)
  | 6 => sequenceRow6 (op.toNat % 16)
  | 7 => sequenceRow7 (op.toNat % 16)
  | 8 => sequenceRow8 (op.toNat % 16)
  | 9 => sequenceRow9 (op.toNat % 16)
  | 10 => sequenceRowA (op.toNat % 16)
  | 11 => sequenceRowB (op.toNat % 16)
  | 12 => sequenceRowC (op.toNat % 16)
  | 13 => sequenceRowD (op.toNat % 16)
  | 14 => sequenceRowE (op.toNat % 16)
  | _ => sequenceRowF (op.toNat % 16)

/-- The sequence of an opcode under a policy: an illegal one is only fetched under `trap` (R321). -/
def sequenceOf (p : Policy) (op : Byte) : List MicroOp :=
  if illegal op && decide (p = .trap) then [.opcodeTrap] else emulatedSequence op

/-- The start of a sequence at a boundary (R120): the interrupt entry if the last poll chose one, else the instruction
whose opcode T1 will read at PC. -/
def beginSequence (s : State) : State :=
  if s.intNext ≠ .none then { s with seq := .interrupt, t := 1, bflag := false, queue := entryOps }
  else { s with seq := .instr, t := 1, queue := sequenceOf s.profile.policy (busValue s.pc s) }

/-- The cycle at the head of the queue. -/
def runQueued (s : State) : State :=
  match s.queue with
  | [] => s
  | u :: us => cycle u us none s

/-- A `step_cycle()` call that is not stalled (R120). -/
def unstalledCycle (s : State) : State :=
  if s.halted then haltedCycle s
  else if s.seq = .fetch then runQueued (beginSequence s)
  else runQueued s

/-- `step_cycle()` (R120): a stalled call does nothing but pass (R85; log 19). -/
def stepCycle (s : State) : State :=
  match s.inputs with
  | ⟨n + 1, line, devices, frame⟩ :: rest => { s with inputs := ⟨n, line, devices, frame⟩ :: rest }
  | _ => unstalledCycle s

/-- `run_cycles(N)`: exactly N calls of `step_cycle()` (R414). -/
def runCycles : Nat → State → State
  | 0, s => s
  | n + 1, s => runCycles n (stepCycle s)

end Sys2Proof.Machine
end

