-- ==== Sys2Proof/Machine/Facade.lean ====
section
/-! DEFINITION. Construction (70_reset_and_hazards.md R431, R435): the validation of the hardware profile
(60_exceptions.md R376) and the power-on reset. -/

namespace Sys2Proof.Machine

/-- A profile as a caller gives it, before it is validated (R376). -/
structure RawProfile where
  ratioP     : Int
  ratioQ     : Int
  policy     : String
  vecNmi     : Option Addr
  vecReset   : Option Addr
  vecIrq     : Option Addr
  map        : List Region
  ppuInput   : InterruptInput
  irqSources : List Nat
  aneMagic   : Option Byte
  lxaMagic   : Option Byte
  storeModel : StoreModel
  deriving DecidableEq, Repr

/-- `power_on_state` and the other OPEN power-on values (R44). -/
structure PowerOnValues where
  a : Byte
  x : Byte
  y : Byte
  s : Byte
  pc : Addr
  p : Byte
  busLatch : Byte
  deriving DecidableEq, Repr

/-- The power-on values R45 reports for the NES's 2A03, for reference only: A, X, Y and S are $00 and a PHP pushes $34.
State.powerOn holds them as a DESIGN CHOICE (log 4); construction takes any values. PC and `bus_latch`, which R45 does not
name, are those of log 5. -/
def PowerOnValues.reported : PowerOnValues := ⟨0x00, 0x00, 0x00, 0x00, 0x0000, 0x34, 0x00⟩

/-- The policy a name stands for (R376). -/
def parsePolicy (name : String) : Option Policy :=
  if name = "trap" then some .trap
  else if name = "emulate" then some .emulate
  else none

/-- The entry is well formed: its period is not zero and divides its range's length (R376). -/
def Region.wellFormed (r : Region) : Bool :=
  decide (r.first ≤ r.last) && decide (0 < r.period) && decide ((r.last + 1 - r.first) % r.period = 0)

/-- Two entries overlap (R376). -/
def Region.overlaps (r q : Region) : Bool :=
  decide (r.first ≤ q.last) && decide (q.first ≤ r.last)

/-- No entry is malformed and no two overlap (R376). -/
def mapWellFormed : List Region → Bool
  | [] => true
  | r :: rs => Region.wellFormed r && rs.all (fun q => !Region.overlaps r q) && mapWellFormed rs

/-- `p/q` in lowest terms (R46). -/
def lowest (n d : Int) : Nat := n.toNat / Nat.gcd n.toNat d.toNat

/-- Validates a profile: the cause of the ConfigurationError, or the profile (R376). Of several causes it reports the
first of ratio, policy, mirroring, vectors (DESIGN CHOICE, log 36). -/
def validate (r : RawProfile) : Except Cause Profile :=
  if r.ratioP ≤ 0 ∨ r.ratioQ ≤ 0 then .error .badRatio
  else
    match parsePolicy r.policy with
    | none => .error .badPolicy
    | some policy =>
      if mapWellFormed r.map = false then .error .badMirroring
      else
        match r.vecNmi, r.vecReset, r.vecIrq with
        | some nmi, some reset, some irq =>
          .ok
            { policy := policy
              ratioP := lowest r.ratioP r.ratioQ
              ratioQ := lowest r.ratioQ r.ratioP
              vecNmi := nmi
              vecReset := reset
              vecIrq := irq
              map := r.map
              ppuInput := r.ppuInput
              irqSources := r.irqSources
              aneMagic := r.aneMagic
              lxaMagic := r.lxaMagic
              storeModel := r.storeModel }
        | _, _, _ => .error .badVectors

/-- The state with the levels that the outside leaves in the first cycle. -/
def withFirstLevels (s : State) : State :=
  { s with ppuLine := (inputNow s).ppuLine, irqAsserting := (inputNow s).irqAsserting }

/-- The power-on state of a profile (R44): the OPEN values are the caller's, and `nmi_prev` and `irq_sampled` are the two
inputs as they are in the first cycle, so that an NMI line already high is no edge (log 23). -/
def powerOnWith (p : Profile) (v : PowerOnValues) (cells : List Host.Cell) (inputs : List CycleInput) : State :=
  let s := loadP v.p
    { State.powerOn with
      a := v.a, x := v.x, y := v.y, sp := v.s, pc := v.pc, busLatch := v.busLatch
      mem := cells, profile := p, inputs := inputs }
  { s with nmiPrev := nmiLine (withFirstLevels s), irqSampled := irqLine (withFirstLevels s) }

/-- Construction: the profile is validated, the machine enters its power-on state and runs the reset sequence, and the
Run State is Paused (R431, R435). -/
def construct (r : RawProfile) (v : PowerOnValues) (cells : List Host.Cell) (inputs : List CycleInput) :
    Except Cause State :=
  match validate r with
  | .error c => .error c
  | .ok p => .ok { resetSequence (powerOnWith p v cells inputs) with runState := .paused }

end Sys2Proof.Machine
end

