-- ==== Sys2Proof/WellFormed.lean ====
section
/-! DEFINITION. Which terms are instructions, and which instructions the policy executes. No operand value is reserved
(30_encoding.md R98), so the one thing to check is the opcode of the constructors that carry it. -/

namespace Sys2Proof

/-- The opcodes of JAM in mode imp that are undocumented (R345). -/
def jamOpcodes : List Byte := [0x02, 0x12, 0x22, 0x32, 0x42, 0x52, 0x62, 0x72, 0x92, 0xB2, 0xD2, 0xF2]

/-- The opcodes of NOP in mode zp that are undocumented (R323). -/
def nopZpOpcodes : List Byte := [0x04, 0x44, 0x64]

/-- The opcodes of ANC in mode imm that are undocumented (R332). -/
def ancImmOpcodes : List Byte := [0x0B, 0x2B]

/-- The opcodes of NOP in mode zpx that are undocumented (R323). -/
def nopZpxOpcodes : List Byte := [0x14, 0x34, 0x54, 0x74, 0xD4, 0xF4]

/-- The opcodes of NOP in mode imp that are undocumented (R323). -/
def nopImpOpcodes : List Byte := [0x1A, 0x3A, 0x5A, 0x7A, 0xDA, 0xFA]

/-- The opcodes of NOP in mode abx that are undocumented (R323). -/
def nopAbxOpcodes : List Byte := [0x1C, 0x3C, 0x5C, 0x7C, 0xDC, 0xFC]

/-- The opcodes of NOP in mode imm that are undocumented (R323). -/
def nopImmOpcodes : List Byte := [0x80, 0x82, 0x89, 0xC2, 0xE2]

/-- The opcode a constructor carries is one of its rows' (R97, R323, R332, R345); no operand is reserved (R98). -/
def Instr.wellFormed : Instr → Bool
  | .jam op => decide (op ∈ jamOpcodes)
  | .nopZp op _ => decide (op ∈ nopZpOpcodes)
  | .ancImm op _ => decide (op ∈ ancImmOpcodes)
  | .nopZpx op _ => decide (op ∈ nopZpxOpcodes)
  | .nopImp op => decide (op ∈ nopImpOpcodes)
  | .nopAbx op _ => decide (op ∈ nopAbxOpcodes)
  | .nopImm op _ => decide (op ∈ nopImmOpcodes)
  | .brk _ | .oraIzx _ | .sloIzx _ | .oraZp _ | .aslZp _ | .sloZp _ | .php | .oraImm _ | .aslAcc | .nopAbs _
  | .oraAbs _ | .aslAbs _ | .sloAbs _ | .bpl _ | .oraIzy _ | .sloIzy _ | .oraZpx _ | .aslZpx _ | .sloZpx _ | .clc
  | .oraAby _ | .sloAby _ | .oraAbx _ | .aslAbx _ | .sloAbx _ | .jsr _ | .andIzx _ | .rlaIzx _ | .bitZp _
  | .andZp _ | .rolZp _ | .rlaZp _ | .plp | .andImm _ | .rolAcc | .bitAbs _ | .andAbs _ | .rolAbs _ | .rlaAbs _
  | .bmi _ | .andIzy _ | .rlaIzy _ | .andZpx _ | .rolZpx _ | .rlaZpx _ | .sec | .andAby _ | .rlaAby _ | .andAbx _
  | .rolAbx _ | .rlaAbx _ | .rti | .eorIzx _ | .sreIzx _ | .eorZp _ | .lsrZp _ | .sreZp _ | .pha | .eorImm _
  | .lsrAcc | .alrImm _ | .jmpAbs _ | .eorAbs _ | .lsrAbs _ | .sreAbs _ | .bvc _ | .eorIzy _ | .sreIzy _
  | .eorZpx _ | .lsrZpx _ | .sreZpx _ | .cli | .eorAby _ | .sreAby _ | .eorAbx _ | .lsrAbx _ | .sreAbx _ | .rts
  | .adcIzx _ | .rraIzx _ | .adcZp _ | .rorZp _ | .rraZp _ | .pla | .adcImm _ | .rorAcc | .arrImm _ | .jmpInd _
  | .adcAbs _ | .rorAbs _ | .rraAbs _ | .bvs _ | .adcIzy _ | .rraIzy _ | .adcZpx _ | .rorZpx _ | .rraZpx _ | .sei
  | .adcAby _ | .rraAby _ | .adcAbx _ | .rorAbx _ | .rraAbx _ | .staIzx _ | .saxIzx _ | .styZp _ | .staZp _
  | .stxZp _ | .saxZp _ | .dey | .txa | .aneImm _ | .styAbs _ | .staAbs _ | .stxAbs _ | .saxAbs _ | .bcc _
  | .staIzy _ | .shaIzy _ | .styZpx _ | .staZpx _ | .stxZpy _ | .saxZpy _ | .tya | .staAby _ | .txs | .tasAby _
  | .shyAbx _ | .staAbx _ | .shxAby _ | .shaAby _ | .ldyImm _ | .ldaIzx _ | .ldxImm _ | .laxIzx _ | .ldyZp _
  | .ldaZp _ | .ldxZp _ | .laxZp _ | .tay | .ldaImm _ | .tax | .lxaImm _ | .ldyAbs _ | .ldaAbs _ | .ldxAbs _
  | .laxAbs _ | .bcs _ | .ldaIzy _ | .laxIzy _ | .ldyZpx _ | .ldaZpx _ | .ldxZpy _ | .laxZpy _ | .clv | .ldaAby _
  | .tsx | .lasAby _ | .ldyAbx _ | .ldaAbx _ | .ldxAby _ | .laxAby _ | .cpyImm _ | .cmpIzx _ | .dcpIzx _ | .cpyZp _
  | .cmpZp _ | .decZp _ | .dcpZp _ | .iny | .cmpImm _ | .dex | .sbxImm _ | .cpyAbs _ | .cmpAbs _ | .decAbs _
  | .dcpAbs _ | .bne _ | .cmpIzy _ | .dcpIzy _ | .cmpZpx _ | .decZpx _ | .dcpZpx _ | .cld | .cmpAby _ | .dcpAby _
  | .cmpAbx _ | .decAbx _ | .dcpAbx _ | .cpxImm _ | .sbcIzx _ | .iscIzx _ | .cpxZp _ | .sbcZp _ | .incZp _
  | .iscZp _ | .inx | .sbcImm _ | .nop | .usbcImm _ | .cpxAbs _ | .sbcAbs _ | .incAbs _ | .iscAbs _ | .beq _
  | .sbcIzy _ | .iscIzy _ | .sbcZpx _ | .incZpx _ | .iscZpx _ | .sed | .sbcAby _ | .iscAby _ | .sbcAbx _
  | .incAbx _ | .iscAbx _ => true

/-- The instruction is one of the 151 documented ones (R94, R97): `documented` of its row. -/
def Instr.documented : Instr → Bool
  | .brk _ | .oraIzx _ | .oraZp _ | .aslZp _ | .php | .oraImm _ | .aslAcc | .oraAbs _ | .aslAbs _ | .bpl _
  | .oraIzy _ | .oraZpx _ | .aslZpx _ | .clc | .oraAby _ | .oraAbx _ | .aslAbx _ | .jsr _ | .andIzx _ | .bitZp _
  | .andZp _ | .rolZp _ | .plp | .andImm _ | .rolAcc | .bitAbs _ | .andAbs _ | .rolAbs _ | .bmi _ | .andIzy _
  | .andZpx _ | .rolZpx _ | .sec | .andAby _ | .andAbx _ | .rolAbx _ | .rti | .eorIzx _ | .eorZp _ | .lsrZp _
  | .pha | .eorImm _ | .lsrAcc | .jmpAbs _ | .eorAbs _ | .lsrAbs _ | .bvc _ | .eorIzy _ | .eorZpx _ | .lsrZpx _
  | .cli | .eorAby _ | .eorAbx _ | .lsrAbx _ | .rts | .adcIzx _ | .adcZp _ | .rorZp _ | .pla | .adcImm _ | .rorAcc
  | .jmpInd _ | .adcAbs _ | .rorAbs _ | .bvs _ | .adcIzy _ | .adcZpx _ | .rorZpx _ | .sei | .adcAby _ | .adcAbx _
  | .rorAbx _ | .staIzx _ | .styZp _ | .staZp _ | .stxZp _ | .dey | .txa | .styAbs _ | .staAbs _ | .stxAbs _
  | .bcc _ | .staIzy _ | .styZpx _ | .staZpx _ | .stxZpy _ | .tya | .staAby _ | .txs | .staAbx _ | .ldyImm _
  | .ldaIzx _ | .ldxImm _ | .ldyZp _ | .ldaZp _ | .ldxZp _ | .tay | .ldaImm _ | .tax | .ldyAbs _ | .ldaAbs _
  | .ldxAbs _ | .bcs _ | .ldaIzy _ | .ldyZpx _ | .ldaZpx _ | .ldxZpy _ | .clv | .ldaAby _ | .tsx | .ldyAbx _
  | .ldaAbx _ | .ldxAby _ | .cpyImm _ | .cmpIzx _ | .cpyZp _ | .cmpZp _ | .decZp _ | .iny | .cmpImm _ | .dex
  | .cpyAbs _ | .cmpAbs _ | .decAbs _ | .bne _ | .cmpIzy _ | .cmpZpx _ | .decZpx _ | .cld | .cmpAby _ | .cmpAbx _
  | .decAbx _ | .cpxImm _ | .sbcIzx _ | .cpxZp _ | .sbcZp _ | .incZp _ | .inx | .sbcImm _ | .nop | .cpxAbs _
  | .sbcAbs _ | .incAbs _ | .beq _ | .sbcIzy _ | .sbcZpx _ | .incZpx _ | .sed | .sbcAby _ | .sbcAbx _ | .incAbx _ => true
  | .jam _ | .sloIzx _ | .nopZp _ _ | .sloZp _ | .ancImm _ _ | .nopAbs _ | .sloAbs _ | .sloIzy _ | .nopZpx _ _
  | .sloZpx _ | .nopImp _ | .sloAby _ | .nopAbx _ _ | .sloAbx _ | .rlaIzx _ | .rlaZp _ | .rlaAbs _ | .rlaIzy _
  | .rlaZpx _ | .rlaAby _ | .rlaAbx _ | .sreIzx _ | .sreZp _ | .alrImm _ | .sreAbs _ | .sreIzy _ | .sreZpx _
  | .sreAby _ | .sreAbx _ | .rraIzx _ | .rraZp _ | .arrImm _ | .rraAbs _ | .rraIzy _ | .rraZpx _ | .rraAby _
  | .rraAbx _ | .nopImm _ _ | .saxIzx _ | .saxZp _ | .aneImm _ | .saxAbs _ | .shaIzy _ | .saxZpy _ | .tasAby _
  | .shyAbx _ | .shxAby _ | .shaAby _ | .laxIzx _ | .laxZp _ | .lxaImm _ | .laxAbs _ | .laxIzy _ | .laxZpy _
  | .lasAby _ | .laxAby _ | .dcpIzx _ | .dcpZp _ | .sbxImm _ | .dcpAbs _ | .dcpIzy _ | .dcpZpx _ | .dcpAby _
  | .dcpAbx _ | .iscIzx _ | .iscZp _ | .usbcImm _ | .iscAbs _ | .iscIzy _ | .iscZpx _ | .iscAby _ | .iscAbx _ => false

/-- The policy executes the instruction: a documented one always, an illegal one under `emulate` only (R97). -/
def Instr.executes (p : Policy) (i : Instr) : Bool :=
  i.documented || decide (p = .emulate)

end Sys2Proof
end

