-- ==== Sys2Proof/Safety.lean ====
section
/-! DEFINITION. The terms claims are made in: an instruction's row of the opcode table, its operand and effective address
by the formulas of 30_encoding.md R93, the programmer's view of a state, an instruction that completes, and what claims
call a good state: the invariant every step keeps, a legal boundary, and a step that goes on. None of it is used by the
machine. -/

namespace Sys2Proof

/-! ### An instruction's row of the opcode table -/

/-- The mnemonic of the instruction's opcode (R95). -/
def Instr.mnemonic (i : Instr) : Mnemonic := (opInfo i.opcode).mnemonic

/-- The addressing mode of the instruction's opcode (R95). -/
def Instr.mode (i : Instr) : Mode := (opInfo i.opcode).mode

/-- The instruction's first operand byte, `i`, `z`, `o` or `l` (R90); 0 where it has none. -/
def Instr.operandLo (i : Instr) : Byte := (encode i).getD 1 0

/-- The instruction's second operand byte, `h` (R90); 0 where it has none. -/
def Instr.operandHi (i : Instr) : Byte := (encode i).getD 2 0

/-- The access classes (R96). -/
inductive AccessClass where
  | read | write | rmw | implied | stack | jump | branch | interrupt | halt
  deriving DecidableEq, Repr

/-- The class of a mnemonic in a mode, by the table of R96. -/
def accessClass (m : Mnemonic) (mode : Mode) : AccessClass :=
  match m with
  | .lda | .ldx | .ldy | .adc | .sbc | .and | .ora | .eor | .cmp | .cpx | .cpy | .bit => .read
  | .lax | .las | .anc | .alr | .arr | .sbx | .usbc | .ane | .lxa => .read
  | .nop => if mode = .imp then .implied else .read
  | .sta | .stx | .sty | .sax | .sha | .shx | .shy | .tas => .write
  | .asl | .lsr | .rol | .ror => if mode = .acc then .implied else .rmw
  | .inc | .dec | .slo | .rla | .sre | .rra | .dcp | .isc => .rmw
  | .tax | .tay | .txa | .tya | .tsx | .txs | .inx | .iny | .dex | .dey => .implied
  | .clc | .sec | .cli | .sei | .clv | .cld | .sed => .implied
  | .pha | .php | .pla | .plp => .stack
  | .jmp | .jsr | .rts | .rti => .jump
  | .bpl | .bmi | .bvc | .bvs | .bcc | .bcs | .bne | .beq => .branch
  | .brk => .interrupt
  | .jam => .halt

/-- The class of an instruction (R96). -/
def Instr.accessClass (i : Instr) : AccessClass := Sys2Proof.accessClass i.mnemonic i.mode

/-- The cycles of a sequence without its page-crossing and branch cycles, by the table of R154. -/
def baseCycles (m : Mnemonic) (mode : Mode) : Nat :=
  match accessClass m mode, mode with
  | .read, .imm => 2
  | .read, .zp => 3
  | .read, .zpx | .read, .zpy | .read, .abs | .read, .abx | .read, .aby => 4
  | .read, .izx => 6
  | .read, .izy => 5
  | .write, .zp => 3
  | .write, .zpx | .write, .zpy | .write, .abs => 4
  | .write, .abx | .write, .aby => 5
  | .write, .izx | .write, .izy => 6
  | .rmw, .zp => 5
  | .rmw, .zpx | .rmw, .abs => 6
  | .rmw, .abx | .rmw, .aby => 7
  | .rmw, .izx | .rmw, .izy => 8
  | .implied, _ | .branch, _ => 2
  | .stack, _ => if m = .pha ∨ m = .php then 3 else 4
  | .jump, .ind => 5
  | .jump, _ => if m = .jmp then 3 else 6
  | .interrupt, _ => 7
  | .halt, _ => 1
  | _, _ => 0

/-- The cycles of an instruction's sequence without its page-crossing and branch cycles (R154). -/
def Instr.baseCycles (i : Instr) : Nat := Sys2Proof.baseCycles i.mnemonic i.mode

/-! ### The encoding lines of the rules: opcode, mode, cycles -/

/-- The `Encoding` line of a rule: each opcode with its mode and its cycles (without `+p` and `+b`). -/
abbrev Rows := List (Byte × Mode × Nat)

/-- The instruction is well formed, and its opcode is one of the rule's. -/
def Instr.hasRow (i : Instr) (rows : Rows) : Prop := i.wellFormed = true ∧ ∃ r ∈ rows, r.1 = i.opcode

/-- The decoder gives the instruction the mode and the cycles of the rule. -/
def Instr.rowRight (i : Instr) (rows : Rows) : Prop := (i.opcode, i.mode, i.baseCycles) ∈ rows

/-- The encodings of LDA (R170). -/
def rowsLda : Rows :=
  [ (0xA9, .imm, 2), (0xA5, .zp, 3), (0xB5, .zpx, 4), (0xAD, .abs, 4), (0xBD, .abx, 4), (0xB9, .aby, 4),
    (0xA1, .izx, 6), (0xB1, .izy, 5) ]

/-- The encodings of LDX (R171). -/
def rowsLdx : Rows :=
  [ (0xA2, .imm, 2), (0xA6, .zp, 3), (0xB6, .zpy, 4), (0xAE, .abs, 4), (0xBE, .aby, 4) ]

/-- The encodings of LDY (R172). -/
def rowsLdy : Rows :=
  [ (0xA0, .imm, 2), (0xA4, .zp, 3), (0xB4, .zpx, 4), (0xAC, .abs, 4), (0xBC, .abx, 4) ]

/-- The encodings of STA (R173). -/
def rowsSta : Rows :=
  [ (0x85, .zp, 3), (0x95, .zpx, 4), (0x8D, .abs, 4), (0x9D, .abx, 5), (0x99, .aby, 5), (0x81, .izx, 6),
    (0x91, .izy, 6) ]

/-- The encodings of STX (R174). -/
def rowsStx : Rows :=
  [ (0x86, .zp, 3), (0x96, .zpy, 4), (0x8E, .abs, 4) ]

/-- The encodings of STY (R175). -/
def rowsSty : Rows :=
  [ (0x84, .zp, 3), (0x94, .zpx, 4), (0x8C, .abs, 4) ]

/-- The encodings of TAX (R176). -/
def rowsTax : Rows :=
  [ (0xAA, .imp, 2) ]

/-- The encodings of TAY (R177). -/
def rowsTay : Rows :=
  [ (0xA8, .imp, 2) ]

/-- The encodings of TXA (R178). -/
def rowsTxa : Rows :=
  [ (0x8A, .imp, 2) ]

/-- The encodings of TYA (R179). -/
def rowsTya : Rows :=
  [ (0x98, .imp, 2) ]

/-- The encodings of TSX (R180). -/
def rowsTsx : Rows :=
  [ (0xBA, .imp, 2) ]

/-- The encodings of TXS (R181). -/
def rowsTxs : Rows :=
  [ (0x9A, .imp, 2) ]

/-- The encodings of PHA (R200). -/
def rowsPha : Rows :=
  [ (0x48, .imp, 3) ]

/-- The encodings of PHP (R201). -/
def rowsPhp : Rows :=
  [ (0x08, .imp, 3) ]

/-- The encodings of PLA (R202). -/
def rowsPla : Rows :=
  [ (0x68, .imp, 4) ]

/-- The encodings of PLP (R203). -/
def rowsPlp : Rows :=
  [ (0x28, .imp, 4) ]

/-- The encodings of ADC (R224). -/
def rowsAdc : Rows :=
  [ (0x69, .imm, 2), (0x65, .zp, 3), (0x75, .zpx, 4), (0x6D, .abs, 4), (0x7D, .abx, 4), (0x79, .aby, 4),
    (0x61, .izx, 6), (0x71, .izy, 5) ]

/-- The encodings of SBC (R225). -/
def rowsSbc : Rows :=
  [ (0xE9, .imm, 2), (0xE5, .zp, 3), (0xF5, .zpx, 4), (0xED, .abs, 4), (0xFD, .abx, 4), (0xF9, .aby, 4),
    (0xE1, .izx, 6), (0xF1, .izy, 5) ]

/-- The encodings of AND (R226). -/
def rowsAnd : Rows :=
  [ (0x29, .imm, 2), (0x25, .zp, 3), (0x35, .zpx, 4), (0x2D, .abs, 4), (0x3D, .abx, 4), (0x39, .aby, 4),
    (0x21, .izx, 6), (0x31, .izy, 5) ]

/-- The encodings of ORA (R227). -/
def rowsOra : Rows :=
  [ (0x09, .imm, 2), (0x05, .zp, 3), (0x15, .zpx, 4), (0x0D, .abs, 4), (0x1D, .abx, 4), (0x19, .aby, 4),
    (0x01, .izx, 6), (0x11, .izy, 5) ]

/-- The encodings of EOR (R228). -/
def rowsEor : Rows :=
  [ (0x49, .imm, 2), (0x45, .zp, 3), (0x55, .zpx, 4), (0x4D, .abs, 4), (0x5D, .abx, 4), (0x59, .aby, 4),
    (0x41, .izx, 6), (0x51, .izy, 5) ]

/-- The encodings of CMP (R229). -/
def rowsCmp : Rows :=
  [ (0xC9, .imm, 2), (0xC5, .zp, 3), (0xD5, .zpx, 4), (0xCD, .abs, 4), (0xDD, .abx, 4), (0xD9, .aby, 4),
    (0xC1, .izx, 6), (0xD1, .izy, 5) ]

/-- The encodings of CPX (R230). -/
def rowsCpx : Rows :=
  [ (0xE0, .imm, 2), (0xE4, .zp, 3), (0xEC, .abs, 4) ]

/-- The encodings of CPY (R231). -/
def rowsCpy : Rows :=
  [ (0xC0, .imm, 2), (0xC4, .zp, 3), (0xCC, .abs, 4) ]

/-- The encodings of BIT (R232). -/
def rowsBit : Rows :=
  [ (0x24, .zp, 3), (0x2C, .abs, 4) ]

/-- The encodings of INC (R233). -/
def rowsInc : Rows :=
  [ (0xE6, .zp, 5), (0xF6, .zpx, 6), (0xEE, .abs, 6), (0xFE, .abx, 7) ]

/-- The encodings of DEC (R234). -/
def rowsDec : Rows :=
  [ (0xC6, .zp, 5), (0xD6, .zpx, 6), (0xCE, .abs, 6), (0xDE, .abx, 7) ]

/-- The encodings of INX (R235). -/
def rowsInx : Rows :=
  [ (0xE8, .imp, 2) ]

/-- The encodings of INY (R236). -/
def rowsIny : Rows :=
  [ (0xC8, .imp, 2) ]

/-- The encodings of DEX (R237). -/
def rowsDex : Rows :=
  [ (0xCA, .imp, 2) ]

/-- The encodings of DEY (R238). -/
def rowsDey : Rows :=
  [ (0x88, .imp, 2) ]

/-- The encodings of ASL (R239). -/
def rowsAsl : Rows :=
  [ (0x0A, .acc, 2), (0x06, .zp, 5), (0x16, .zpx, 6), (0x0E, .abs, 6), (0x1E, .abx, 7) ]

/-- The encodings of LSR (R240). -/
def rowsLsr : Rows :=
  [ (0x4A, .acc, 2), (0x46, .zp, 5), (0x56, .zpx, 6), (0x4E, .abs, 6), (0x5E, .abx, 7) ]

/-- The encodings of ROL (R241). -/
def rowsRol : Rows :=
  [ (0x2A, .acc, 2), (0x26, .zp, 5), (0x36, .zpx, 6), (0x2E, .abs, 6), (0x3E, .abx, 7) ]

/-- The encodings of ROR (R242). -/
def rowsRor : Rows :=
  [ (0x6A, .acc, 2), (0x66, .zp, 5), (0x76, .zpx, 6), (0x6E, .abs, 6), (0x7E, .abx, 7) ]

/-- The encodings of the eight branches (R276 to R283). -/
def rowsBranch : Rows :=
  [ (0x10, .rel, 2), (0x30, .rel, 2), (0x50, .rel, 2), (0x70, .rel, 2), (0x90, .rel, 2), (0xB0, .rel, 2),
    (0xD0, .rel, 2), (0xF0, .rel, 2) ]

/-- The encodings of CLC (R284). -/
def rowsClc : Rows :=
  [ (0x18, .imp, 2) ]

/-- The encodings of SEC (R285). -/
def rowsSec : Rows :=
  [ (0x38, .imp, 2) ]

/-- The encodings of CLI (R286). -/
def rowsCli : Rows :=
  [ (0x58, .imp, 2) ]

/-- The encodings of SEI (R287). -/
def rowsSei : Rows :=
  [ (0x78, .imp, 2) ]

/-- The encodings of CLV (R288). -/
def rowsClv : Rows :=
  [ (0xB8, .imp, 2) ]

/-- The encodings of CLD (R289). -/
def rowsCld : Rows :=
  [ (0xD8, .imp, 2) ]

/-- The encodings of SED (R290). -/
def rowsSed : Rows :=
  [ (0xF8, .imp, 2) ]

/-- The encodings of NOP (R291). -/
def rowsNop : Rows :=
  [ (0xEA, .imp, 2) ]

/-- The encodings of the undocumented NOPs (R323). -/
def rowsUndocNop : Rows :=
  [ (0x1A, .imp, 2), (0x3A, .imp, 2), (0x5A, .imp, 2), (0x7A, .imp, 2), (0xDA, .imp, 2), (0xFA, .imp, 2),
    (0x80, .imm, 2), (0x82, .imm, 2), (0x89, .imm, 2), (0xC2, .imm, 2), (0xE2, .imm, 2), (0x04, .zp, 3),
    (0x44, .zp, 3), (0x64, .zp, 3), (0x14, .zpx, 4), (0x34, .zpx, 4), (0x54, .zpx, 4), (0x74, .zpx, 4),
    (0xD4, .zpx, 4), (0xF4, .zpx, 4), (0x0C, .abs, 4), (0x1C, .abx, 4), (0x3C, .abx, 4), (0x5C, .abx, 4),
    (0x7C, .abx, 4), (0xDC, .abx, 4), (0xFC, .abx, 4) ]

/-- The encodings of SLO (R324). -/
def rowsSlo : Rows :=
  [ (0x07, .zp, 5), (0x17, .zpx, 6), (0x0F, .abs, 6), (0x1F, .abx, 7), (0x1B, .aby, 7), (0x03, .izx, 8),
    (0x13, .izy, 8) ]

/-- The encodings of RLA (R325). -/
def rowsRla : Rows :=
  [ (0x27, .zp, 5), (0x37, .zpx, 6), (0x2F, .abs, 6), (0x3F, .abx, 7), (0x3B, .aby, 7), (0x23, .izx, 8),
    (0x33, .izy, 8) ]

/-- The encodings of SRE (R326). -/
def rowsSre : Rows :=
  [ (0x47, .zp, 5), (0x57, .zpx, 6), (0x4F, .abs, 6), (0x5F, .abx, 7), (0x5B, .aby, 7), (0x43, .izx, 8),
    (0x53, .izy, 8) ]

/-- The encodings of RRA (R327). -/
def rowsRra : Rows :=
  [ (0x67, .zp, 5), (0x77, .zpx, 6), (0x6F, .abs, 6), (0x7F, .abx, 7), (0x7B, .aby, 7), (0x63, .izx, 8),
    (0x73, .izy, 8) ]

/-- The encodings of SAX (R328). -/
def rowsSax : Rows :=
  [ (0x87, .zp, 3), (0x97, .zpy, 4), (0x8F, .abs, 4), (0x83, .izx, 6) ]

/-- The encodings of LAX (R329). -/
def rowsLax : Rows :=
  [ (0xA7, .zp, 3), (0xB7, .zpy, 4), (0xAF, .abs, 4), (0xBF, .aby, 4), (0xA3, .izx, 6), (0xB3, .izy, 5) ]

/-- The encodings of DCP (R330). -/
def rowsDcp : Rows :=
  [ (0xC7, .zp, 5), (0xD7, .zpx, 6), (0xCF, .abs, 6), (0xDF, .abx, 7), (0xDB, .aby, 7), (0xC3, .izx, 8),
    (0xD3, .izy, 8) ]

/-- The encodings of ISC (R331). -/
def rowsIsc : Rows :=
  [ (0xE7, .zp, 5), (0xF7, .zpx, 6), (0xEF, .abs, 6), (0xFF, .abx, 7), (0xFB, .aby, 7), (0xE3, .izx, 8),
    (0xF3, .izy, 8) ]

/-- The encodings of ANC (R332). -/
def rowsAnc : Rows :=
  [ (0x0B, .imm, 2), (0x2B, .imm, 2) ]

/-- The encodings of ALR (R333). -/
def rowsAlr : Rows :=
  [ (0x4B, .imm, 2) ]

/-- The encodings of ARR (R334). -/
def rowsArr : Rows :=
  [ (0x6B, .imm, 2) ]

/-- The encodings of SBX (R335). -/
def rowsSbx : Rows :=
  [ (0xCB, .imm, 2) ]

/-- The encodings of USBC (R336). -/
def rowsUsbc : Rows :=
  [ (0xEB, .imm, 2) ]

/-- The encodings of LAS (R337). -/
def rowsLas : Rows :=
  [ (0xBB, .aby, 4) ]

/-- The encodings of ANE (R338). -/
def rowsAne : Rows :=
  [ (0x8B, .imm, 2) ]

/-- The encodings of LXA (R339). -/
def rowsLxa : Rows :=
  [ (0xAB, .imm, 2) ]

/-- The encodings of SHA (R341). -/
def rowsSha : Rows :=
  [ (0x9F, .aby, 5), (0x93, .izy, 6) ]

/-- The encodings of SHX (R342). -/
def rowsShx : Rows :=
  [ (0x9E, .aby, 5) ]

/-- The encodings of SHY (R343). -/
def rowsShy : Rows :=
  [ (0x9C, .abx, 5) ]

/-- The encodings of TAS (R344). -/
def rowsTas : Rows :=
  [ (0x9B, .aby, 5) ]

/-- The encodings of JAM (R345). -/
def rowsJam : Rows :=
  [ (0x02, .imp, 1), (0x12, .imp, 1), (0x22, .imp, 1), (0x32, .imp, 1), (0x42, .imp, 1), (0x52, .imp, 1),
    (0x62, .imp, 1), (0x72, .imp, 1), (0x92, .imp, 1), (0xB2, .imp, 1), (0xD2, .imp, 1), (0xF2, .imp, 1) ]

namespace Machine

/-! ### What a state shows -/

/-- The byte of the RAM or ROM cell an address resolves to (R61); none at a register or where nothing is driven. -/
def State.stored (s : State) (a : Addr) : Option Byte :=
  match (target s a).kind with
  | .ram | .rom => some (Memory.read s.mem (target s a).cell)
  | .port _ _ | .undriven | .outOfRange => none

/-- A read of the address answers `bus_latch` (R64, R375): nothing drives it, it is a write-only register, or it is out of
the mapper's range. -/
def State.openBus (s : State) (a : Addr) : Prop :=
  (target s a).kind = .undriven ∨ (target s a).kind = .outOfRange ∨
    ∃ chip writeOnly, (target s a).kind = .port chip writeOnly ∧ (target s a).offset ∈ writeOnly

/-- The programmer's view of a state: the registers but PC, the six flags, and every byte of RAM and ROM. -/
structure View where
  a  : Byte
  x  : Byte
  y  : Byte
  sp : Byte
  fN : Bool
  fV : Bool
  fD : Bool
  fI : Bool
  fZ : Bool
  fC : Bool
  cells : Addr → Option Byte

/-- The programmer's view. -/
def State.view (s : State) : View := ⟨s.a, s.x, s.y, s.sp, s.fN, s.fV, s.fD, s.fI, s.fZ, s.fC, s.stored⟩

/-- `setNZ(v)` (R9). -/
def View.nz (r : Byte) (w : View) : View := { w with fN := r.msb, fZ := decide (r = 0) }

/-- P loaded from a byte (R28). -/
def View.loadP (v : Byte) (w : View) : View :=
  { w with
    fN := v.getLsbD 7, fV := v.getLsbD 6, fD := v.getLsbD 3, fI := v.getLsbD 2, fZ := v.getLsbD 1, fC := v.getLsbD 0 }

/-- A flag as a number. -/
def flagNat (c : Bool) : Nat := if c then 1 else 0

/-- `Pbyte(b)` (R27) as the number its bits make. -/
def View.pNat (b : Bool) (w : View) : Nat :=
  128 * flagNat w.fN + 64 * flagNat w.fV + 32 + 16 * flagNat b + 8 * flagNat w.fD + 4 * flagNat w.fI +
    2 * flagNat w.fZ + flagNat w.fC

/-- The bytes of memory after a bus write of `v` at `ea` (R63, R65): where `ea` is RAM, each address that shares its cell
shows `v`; every other address, and every address where `ea` is not RAM, shows what it showed. -/
def State.afterStore (s : State) (ea : Addr) (v : Byte) (cells : Addr → Option Byte) : Addr → Option Byte :=
  fun a => if (target s ea).kind = .ram ∧ (target s a).cell = (target s ea).cell then (cells a).map (fun _ => v) else cells a

/-- The effective address of a memory operand, by the formulas of R93; none where the mode has none, or where a pointer
byte is not a byte of RAM or ROM. -/
def effective (i : Instr) (s : State) : Option Addr :=
  match i.mode with
  | .zp => some (zeroPage i.operandLo)
  | .zpx => some (zeroPage (i.operandLo + s.x))
  | .zpy => some (zeroPage (i.operandLo + s.y))
  | .abs => some (join i.operandHi i.operandLo)
  | .abx => some (join i.operandHi i.operandLo + s.x.setWidth 16)
  | .aby => some (join i.operandHi i.operandLo + s.y.setWidth 16)
  | .izx =>
    match s.stored (zeroPage (i.operandLo + s.x)), s.stored (zeroPage (i.operandLo + s.x + 1)) with
    | some l, some h => some (join h l)
    | _, _ => none
  | .izy =>
    match s.stored (zeroPage i.operandLo), s.stored (zeroPage (i.operandLo + 1)) with
    | some l, some h => some (join h l + s.y.setWidth 16)
    | _, _ => none
  | .imp | .acc | .imm | .rel | .ind => none

/-- The addition of the index carries out of the low byte (R135, R141): whether an indexed access crosses a page; none
where the mode indexes no 16-bit base, or where the pointer's low byte is not a byte of RAM or ROM. -/
def crosses (i : Instr) (s : State) : Option Bool :=
  match i.mode with
  | .abx => some (decide (255 < i.operandLo.toNat + s.x.toNat))
  | .aby => some (decide (255 < i.operandLo.toNat + s.y.toNat))
  | .izy => (s.stored (zeroPage i.operandLo)).map (fun l => decide (255 < l.toNat + s.y.toNat))
  | .imp | .acc | .imm | .zp | .zpx | .zpy | .izx | .rel | .abs | .ind => none

/-! ### An instruction that completes -/

/-- No entry of the address map is out of the mapper's range, so that no access is a BusFault (R375). -/
def State.noBusFault (s : State) : Prop := ∀ r ∈ s.profile.map, r.kind ≠ .outOfRange

/-- The state stands at an instruction boundary (R36, R345): a fetch is next, or the CPU is halted, and no
micro-operation is queued. -/
structure State.AtBoundary (s : State) : Prop where
  /-- A fetch is next exactly when the CPU is not halted, which is when `seq` is Halted. -/
  seq_eq : s.seq = if s.halted then .halted else .fetch
  /-- No micro-operation is queued. -/
  queue_eq : s.queue = []

/-- What no instruction but JAM and a trap touches: the profile, the halted state, the debugger's state, and the fault
record where no access is a BusFault. -/
structure Untouched (s t : State) : Prop where
  profile  : t.profile = s.profile
  halted   : t.halted = s.halted
  run      : t.runState = s.runState
  points   : t.breakpoints = s.breakpoints
  nextId   : t.nextBreakpointId = s.nextBreakpointId
  pause    : t.pauseRequested = s.pauseRequested
  stop     : t.stopReason = s.stopReason
  script   : t.commands = s.commands
  fault    : s.noBusFault → t.fault = s.fault

/-- From `s` a sequence ENDS in `t`: at a boundary, with nothing touched but the programmer's view, PC, the sequencer, the
interrupt inputs, the clock and the bus. -/
structure Ends (s t : State) : Prop where
  boundary  : t.AtBoundary
  untouched : Untouched s t

/-- The page-crossing cycle of a read (R154); none where `crosses` does not tell. -/
def extraCycles (i : Instr) (s : State) : Option Nat :=
  match i.accessClass, i.mode with
  | .read, .abx | .read, .aby | .read, .izy => (crosses i s).map flagNat
  | _, _ => some 0

/-- From `s` the instruction ends in `t`, PC has advanced by its length (R25, R91), and it has taken its cycles (R154). -/
structure Completes (i : Instr) (s t : State) : Prop where
  ends   : Ends s t
  pc     : t.pc = s.pc + BitVec.ofNat 16 (opLength i.opcode)
  cycles : ∀ n, extraCycles i s = some n → t.cycles = s.cycles + i.baseCycles + n

/-- The address with the uncorrected high byte, where the dummy read of an indexed access is made (R135, R141, R444); none
where the mode indexes no 16-bit base, or where a pointer byte is not a byte of RAM or ROM. -/
def uncorrected (i : Instr) (s : State) : Option Addr :=
  match i.mode with
  | .abx => some (join i.operandHi (i.operandLo + s.x))
  | .aby => some (join i.operandHi (i.operandLo + s.y))
  | .izy =>
    match s.stored (zeroPage i.operandLo), s.stored (zeroPage (i.operandLo + 1)) with
    | some l, some h => some (join h (l + s.y))
    | _, _ => none
  | .imp | .acc | .imm | .zp | .zpx | .zpy | .izx | .rel | .abs | .ind => none

/-- The register-hook call of the dummy read, where its address is a register's (R443). -/
def dummyEvents (i : Instr) (s : State) : List PortEvent :=
  match uncorrected i s with
  | some d => readEvents (target s d)
  | none => []

/-- In the end state `t` the last byte transferred on the bus is the operand M of a read-class instruction: the immediate
byte, or the byte read at the effective address (R93, R122). A register there sees the read, after the dummy read of a
crossed page (R74, R135, R141). -/
def OperandRead (i : Instr) (s t : State) : Prop :=
  (i.mode = .imm → t.busLatch = i.operandLo) ∧
    ∀ ea, effective i s = some ea →
      t.ad = ea ∧ (∀ v, s.stored ea = some v → t.busLatch = v) ∧
        ∃ rest, t.portLog =
          readEvents (target s ea) ++ (if crosses i s = some true then dummyEvents i s else []) ++ rest

/-- In the end state `t` the address latch is the effective address, where a write-class instruction has written the last
byte transferred (R93, R122). A register there sees the write, after the dummy read that an indexed access always makes
(R136, R142). -/
def OperandWritten (i : Instr) (s t : State) : Prop :=
  ∀ ea, effective i s = some ea →
    t.ad = ea ∧ ∃ rest, t.portLog = writeEvents (target s ea) t.busLatch ++ dummyEvents i s ++ rest

/-- In the end state `t` the address latch is the effective address, the data latch is the operand M that a
read-modify-write instruction read there, and the last byte transferred is the byte it wrote (R93, R122). A register
there sees the read, the dummy write of M and the write of the result (R73). -/
def OperandModified (i : Instr) (s t : State) : Prop :=
  ∀ ea, effective i s = some ea →
    t.ad = ea ∧ (∀ v, s.stored ea = some v → t.dl = v) ∧
      ∃ rest, t.portLog =
        writeEvents (target s ea) t.busLatch ++ writeEvents (target s ea) t.dl ++ readEvents (target s ea) ++
          dummyEvents i s ++ rest

/-- The high byte of the base address before indexing (R340); none where a pointer byte is not a byte of RAM or ROM. -/
def baseHigh (i : Instr) (s : State) : Option Byte :=
  match i.mode with
  | .abx | .aby => some i.operandHi
  | .izy => s.stored (zeroPage (i.operandLo + 1))
  | .imp | .acc | .imm | .zp | .zpx | .zpy | .izx | .rel | .abs | .ind => none

/-- The word whose low and high byte two addresses show (R69). -/
def wordAt (cells : Addr → Option Byte) (low high : Addr) : Option Addr :=
  match cells low, cells high with
  | some l, some h => some (join h l)
  | _, _ => none

/-- The bytes of memory after pushing `v` with S at `sp` (R8, R24). -/
def State.afterPush (s : State) (sp v : Byte) (cells : Addr → Option Byte) : Addr → Option Byte :=
  s.afterStore (stackAddr sp) v cells

/-- The bytes of memory after an interrupt entry, or BRK, has pushed `ret` and the status byte `p` (R390, R391). -/
def State.afterEntry (s : State) (ret : Addr) (p : Byte) : Addr → Option Byte :=
  s.afterPush (s.sp - 2) p (s.afterPush (s.sp - 1) (lo ret) (s.afterPush s.sp (hi ret) s.stored))

/-! ### The interrupt inputs over the cycles of a sequence -/

/-- The state's clock and inputs after `n` cycles of sampling (R382, R412). -/
def sampled : Nat → State → State
  | 0, s => s
  | n + 1, s => sampled n (sampleInputs (clock s))

/-- What a poll at the end of the n-th cycle from `s` finds, with the interrupt mask `mask` (R384). -/
def pollAfter (n : Nat) (mask : Bool) (s : State) : IntNext :=
  if (sampled n s).nmiPending then .nmi
  else if (sampled n s).irqSampled ∧ mask = false then .irq
  else .none

/-! ### What the host does next -/

/-- The command the host issues in this step; none where it ticks (log 20). -/
def nextCommand (s : State) : Option Command := s.commands.head?.join

/-- The state with this step's entry of the host's script taken. -/
def scriptTaken (s : State) : State := { s with commands := s.commands.tail }

/-- This step is a tick that runs a sequence: the host ticks and the machine is not Paused (R400). -/
def State.ticks (s : State) : Prop := nextCommand s = none ∧ s.runState ≠ .paused

/-- This step's sequence is an instruction: the machine is at a boundary, not halted, with no interrupt polled (R120). -/
def State.fetchesNext (s : State) : Prop := s.seq = .fetch ∧ s.halted = false ∧ s.intNext = .none

/-! ### Good states -/

/-- The breakpoint set is one that `add_breakpoint` and `remove_breakpoint` make (R411): ids rise, none is above the
next fresh id, and all are enabled. -/
structure BreakpointsGood (s : State) : Prop where
  rising  : s.breakpoints.Pairwise (fun b c => b.id < c.id)
  fresh   : ∀ b ∈ s.breakpoints, b.id < s.nextBreakpointId
  enabled : ∀ b ∈ s.breakpoints, b.enabled = true

/-- THE INVARIANT every step keeps. -/
structure State.Inv (s : State) : Prop where
  /-- Memory is in canonical form. -/
  mem_wf : Memory.wf s.mem = true
  /-- Every cell listed has an address of the 64K space (R61). -/
  mem_small : ∀ c ∈ s.mem, c.1 < 65536
  /-- The PPU fraction carried is below `q` (R46). -/
  acc_lt : s.ppuAcc < s.profile.ratioQ
  /-- A step ends at a boundary (R400). -/
  boundary : s.AtBoundary
  /-- A machine that is not Paused has no fault recorded (R373, R404). -/
  running_clean : s.runState ≠ .paused → s.fault = none
  /-- A step of one instruction never leaves the Run State stepping (R405). -/
  not_stepping : s.runState ≠ .steppingInstruction
  /-- The breakpoint set is good (R411). -/
  breakpoints_good : BreakpointsGood s

/-- The step goes on: it is neither a fault nor a refusal (R370). -/
def State.goesOn (s : State) : Prop := ∃ t, step s = .next t

end Machine
end Sys2Proof
end

