-- ==== Sys2Proof/Certificates/Slice0/Obligations.lean ====
section
/-! DEFINITION. The statements about the model, each formalising what rules of spec/ say. The terms they use are those of
Sys2Proof/Safety.lean. Every instruction statement holds in every state, under every hardware profile, and answers with
the whole effect: the new programmer's view (every register, flag and byte of memory), PC, and the cycles taken. -/

open Sys2Proof Sys2Proof.Machine

/-! ### Encoding, decoding, disassembly -/

/-- One word of each family, written out from the opcode matrix R95 and the byte orders of R90, decodes to the instruction
it stands for (R90, R95). -/
def Obligations.WordsFromTheOpcodeMatrixDecode : Prop :=
  decode [0xA9, 0x10] = .ok (.ldaImm 0x10, []) ∧
  decode [0x8D, 0x34, 0x12] = .ok (.staAbs 0x1234, []) ∧
  decode [0xAA] = .ok (.tax, []) ∧
  decode [0x48] = .ok (.pha, []) ∧
  decode [0x71, 0x20] = .ok (.adcIzy 0x20, []) ∧
  decode [0xE8] = .ok (.inx, []) ∧
  decode [0x1E, 0x00, 0x03] = .ok (.aslAbx 0x0300, []) ∧
  decode [0xD0, 0xF9] = .ok (.bne 0xF9, []) ∧
  decode [0x6C, 0xFF, 0x02] = .ok (.jmpInd 0x02FF, []) ∧
  decode [0x78] = .ok (.sei, []) ∧
  decode [0x03, 0x40] = .ok (.sloIzx 0x40, []) ∧
  decode [0x9B, 0x00, 0x02] = .ok (.tasAby 0x0200, []) ∧
  decode [0xF2] = .ok (.jam 0xF2, [])

/-- Decoding the bytes of any well-formed instruction, whatever follows them, gives that instruction back and leaves what
follows (R90, R98). -/
def Obligations.DecodeInvertsEncode : Prop :=
  ∀ (i : Instr) (rest : List Byte), i.wellFormed = true → decode (encode i ++ rest) = .ok (i, rest)

/-- Every byte is an opcode and every operand is valid (R94, R98): any three bytes begin with exactly one instruction,
which is well formed, has the first byte as its opcode and the length that byte gives (R91), and encodes to the bytes
taken. Whatever is decoded encodes back. -/
def Obligations.EncodeInvertsDecode : Prop :=
  (∀ (op l h : Byte) (rest : List Byte), ∃ i after, decode (op :: l :: h :: rest) = .ok (i, after) ∧
    i.opcode = op ∧ (encode i).length = opLength op) ∧
  ∀ (bytes : List Byte) (i : Instr) (rest : List Byte), decode bytes = .ok (i, rest) →
    i.wellFormed = true ∧ encode i ++ rest = bytes

/-- The illegal opcodes are exactly the 105 values of R97; R104's test is "not documented". The length of an opcode is
that of its mode, but for BRK's signature byte (R91). -/
def Obligations.IllegalSetAndLengthsOfTheTable : Prop :=
  (∀ op : Byte, illegal op = true ↔ op ∈ (
    [ 0x02, 0x12, 0x22, 0x32, 0x42, 0x52, 0x62, 0x72, 0x92, 0xB2, 0xD2, 0xF2,
      0x1A, 0x3A, 0x5A, 0x7A, 0xDA, 0xFA, 0x80, 0x82, 0x89, 0xC2, 0xE2, 0x04, 0x44, 0x64, 0x14, 0x34, 0x54, 0x74,
      0xD4, 0xF4, 0x0C, 0x1C, 0x3C, 0x5C, 0x7C, 0xDC, 0xFC ] ++
    [ 0x07, 0x17, 0x0F, 0x1F, 0x1B, 0x03, 0x13, 0x27, 0x37, 0x2F, 0x3F, 0x3B, 0x23, 0x33,
      0x47, 0x57, 0x4F, 0x5F, 0x5B, 0x43, 0x53, 0x67, 0x77, 0x6F, 0x7F, 0x7B, 0x63, 0x73 ] ++
    [ 0x87, 0x97, 0x8F, 0x83, 0xA7, 0xB7, 0xAF, 0xBF, 0xA3, 0xB3,
      0xC7, 0xD7, 0xCF, 0xDF, 0xDB, 0xC3, 0xD3, 0xE7, 0xF7, 0xEF, 0xFF, 0xFB, 0xE3, 0xF3 ] ++
    [ 0x0B, 0x2B, 0x4B, 0x6B, 0xCB, 0xEB, 0xBB, 0x8B, 0xAB, 0x9F, 0x93, 0x9E, 0x9C, 0x9B ] : List Byte)) ∧
  (∀ op : Byte, illegal op = !(opInfo op).documented) ∧
  ∀ op : Byte, opLength op =
    match (opInfo op).mode with
    | .imp => if op = 0x00 then 2 else 1
    | .acc => 1
    | .imm | .zp | .zpx | .zpy | .izx | .izy | .rel => 2
    | .abs | .abx | .aby | .ind => 3

/-- Every documented opcode round-trips through the Disassembler: re-encoding its mnemonic and operand text at its address
gives the original bytes (R103). An illegal one renders as the placeholder, with no operand and the length the CPU uses
(R102, R346), and has no encoding. The result is a function of the bytes its length takes and of nothing else (R101). -/
def Obligations.DisassemblyRoundTrips : Prop :=
  ∀ (read : Addr → Byte) (a : Addr),
    (illegal (read a) = false →
      reencode (disassemble read a).mnemonic (disassemble read a).operand a =
        some ((List.range (opLength (read a))).map fun k => read (a + BitVec.ofNat 16 k))) ∧
    (illegal (read a) = true →
      (disassemble read a).mnemonic = ['?', '?', '?'] ∧ (disassemble read a).operand = [] ∧
      reencode (disassemble read a).mnemonic (disassemble read a).operand a = none) ∧
    (disassemble read a).length = opLength (read a) ∧ (disassemble read a).address = a ∧
    ∀ other : Addr → Byte,
      (∀ k, k < opLength (read a) → other (a + BitVec.ofNat 16 k) = read (a + BitVec.ofNat 16 k)) →
      disassemble other a = disassemble read a

/-! ### One step -/

/-- A step runs the decoded instruction: where this step ticks and an instruction is next, and the bytes that the read
cycles at PC deliver decode to `i`, the step is exec of `i` (on the state with the host's script entry taken), then the
boundary check (R120, R400). -/
def Obligations.StepRunsTheDecodedInstruction : Prop :=
  ∀ (s t : State) (i : Instr) (rest : List Byte), s.ticks → s.fetchesNext →
    decode (fetchBytes s) = .ok (i, rest) → exec i (scriptTaken s) = .next t → step s = .next (boundaryCheck t)

/-- What the read cycles at PC deliver: each byte that RAM or ROM stores there, in ascending addresses (R69, R80); the
third byte of a JSR as it stands after JSR's own pushes (R271); where the read answers `bus_latch` (nothing drives the
address, a write-only register, an out-of-range register), the last byte transferred, which for the third byte of a JSR is
the byte it pushed last (R64, R375). -/
def Obligations.FetchDeliversTheBytesAtPc : Prop :=
  ∀ s : State, Memory.wf s.mem = true →
    ∃ b0 b1 b2, fetchBytes s = [b0, b1, b2] ∧
      (∀ v, s.stored s.pc = some v → b0 = v) ∧
      (∀ v, s.stored (s.pc + 1) = some v → b1 = v) ∧
      (b0 ≠ 0x20 → ∀ v, s.stored (s.pc + 2) = some v → b2 = v) ∧
      (b0 = 0x20 → ∀ v,
        s.afterPush (s.sp - 1) (lo (s.pc + 2)) (s.afterPush s.sp (hi (s.pc + 2)) s.stored) (s.pc + 2) = some v →
          b2 = v) ∧
      (s.openBus s.pc → b0 = s.busLatch) ∧
      (s.openBus (s.pc + 1) → b1 = b0) ∧
      (s.openBus (s.pc + 2) → b2 = if b0 = 0x20 then lo (s.pc + 2) else b1)

/-- A tick is its sequence's cycles: `tick()` is `step_cycle()` repeated until the boundary, the opcode and operand bytes
being read from the Bus in the cycles that R121 to R153 give them, and the boundary comes at no earlier cycle (R120,
R400, R414). Stalled calls, which R85 leaves to the platform, are left out (log 19). -/
def Obligations.TickIsRepeatedStepCycle : Prop :=
  ∀ s : State, s.Inv → s.ticks → (∀ e ∈ s.inputs, e.stall = 0) →
    ∃ t n, 0 < n ∧ t = runCycles n (scriptTaken s) ∧ t.AtBoundary ∧ t.cycles = s.cycles + n ∧
      (∀ k, 0 < k → k < n → (runCycles k (scriptTaken s)).seq ≠ .fetch ∧ (runCycles k (scriptTaken s)).halted = false) ∧
      step s = .next (boundaryCheck t)

/-- Every error is reported, never fatal: no step, in any state, ends in a fault or a refusal of the model (R370, R371). -/
def Obligations.EveryStepGoesOn : Prop := ∀ s : State, s.goesOn

/-- THE INVARIANT: whatever a step does (a tick or a command), it keeps memory in canonical form within 64K, the PPU
fraction below q, the machine at a boundary, a running machine free of a fault, and the breakpoint ids fresh and rising
(R36, R46, R61, R373, R400, R404, R411). -/
def Obligations.EveryStepKeepsTheInvariant : Prop :=
  ∀ s t : State, s.Inv → step s = .next t → t.Inv

/-- The invariant holds after reset. -/
def Obligations.ResetMeetsTheInvariant : Prop := State.reset.Inv

/-- The hardware profile is configuration: no step changes it (R42). -/
def Obligations.NoStepChangesTheProfile : Prop :=
  ∀ s t : State, step s = .next t → t.profile = s.profile

/-! ### Reset and construction -/

/-- State.reset holds the values R44 gives after reset, and is the reset sequence's result on State.powerOn. The values of
A, X, Y, S, the flags other than I, the profile and what an unlisted cell reads as are the model's choices (logs 3 to 6),
and are not named here. -/
def Obligations.ResetStateHasTheSpecsValues : Prop :=
  State.reset = resetSequence State.powerOn ∧
  State.reset.sp = State.powerOn.sp - 3 ∧ State.reset.fI = true ∧ State.reset.seq = .fetch ∧
  State.reset.nmiPending = false ∧ State.reset.intNext = .none ∧ State.reset.halted = false ∧
  State.reset.fault = none ∧ State.reset.runState = .paused ∧ State.reset.breakpoints = [] ∧
  State.reset.ppuAcc = 0 ∧ State.reset.cycles = 7 ∧ State.reset.pauseRequested = false ∧
  State.reset.frameSeen = false ∧ State.reset.stopReason = .none

/-- The reset command, accepted while Paused: seven cycles, S drops by 3 with no byte of the stack written, I is set, every
other register, flag and byte of memory is as before, PC is loaded from the reset vector, and the halted state, the fault,
a pending NMI edge and the last poll are cleared; the Run State, stop reason and breakpoints stay (R44, R430, R432,
R433). That R44's `nmi_pending` 0 and `fault` none hold whatever the seven cycles sample and record is the model's reading
(logs 32 and 33). -/
def Obligations.ResetCommandRunsTheResetSequence : Prop :=
  ∀ s : State, s.AtBoundary → nextCommand s = some .reset → s.runState = .paused →
    ∃ t, step s = .next t ∧ t.AtBoundary ∧
      t.view = { s.view with sp := s.sp - 3, fI := true } ∧
      t.pc = join t.busLatch t.dl ∧
      (∀ w, wordAt s.stored s.profile.vecReset (s.profile.vecReset + 1) = some w → t.pc = w) ∧
      t.cycles = s.cycles + 7 ∧ t.halted = false ∧ t.fault = none ∧ t.intNext = .none ∧
      t.nmiPending = false ∧ t.nmiPrev = nmiLine t ∧ t.irqSampled = irqLine t ∧
      t.runState = .paused ∧ t.stopReason = s.stopReason ∧ t.breakpoints = s.breakpoints ∧
      t.nextBreakpointId = s.nextBreakpointId ∧ t.profile = s.profile ∧ t.commands = s.commands.tail

/-- Construction: the profile is validated first; then the machine, in the power-on state with any values of the OPEN
registers, runs the reset sequence and is Paused at the boundary after it, with PC at the reset vector's target (R44, R431,
R435; `nmi_pending` and `fault` by logs 32 and 33). -/
def Obligations.ConstructionRunsTheResetSequence : Prop :=
  ∀ (r : RawProfile) (v : PowerOnValues) (cells : List Host.Cell) (inputs : List CycleInput),
    (∀ c, validate r = .error c → construct r v cells inputs = .error c) ∧
    ∀ p, validate r = .ok p →
      ∃ s, construct r v cells inputs = .ok s ∧ s.profile = p ∧ s.AtBoundary ∧ s.seq = .fetch ∧ s.runState = .paused ∧
        s.a = v.a ∧ s.x = v.x ∧ s.y = v.y ∧ s.sp = v.s - 3 ∧ s.fI = true ∧
        s.fN = v.p.getLsbD 7 ∧ s.fV = v.p.getLsbD 6 ∧ s.fD = v.p.getLsbD 3 ∧ s.fZ = v.p.getLsbD 1 ∧
        s.fC = v.p.getLsbD 0 ∧ s.mem = cells ∧
        (∀ w, wordAt s.stored p.vecReset (p.vecReset + 1) = some w → s.pc = w) ∧
        s.pc = join s.busLatch s.dl ∧ s.cycles = 7 ∧ s.halted = false ∧ s.intNext = .none ∧
        s.fault = none ∧ s.nmiPending = false ∧ s.breakpoints = [] ∧ s.pauseRequested = false ∧ s.stopReason = .none ∧
        s.nmiPrev = nmiLine s ∧ s.irqSampled = irqLine s

/-- A profile is rejected exactly for the causes of R376: a ratio that is not positive, a policy other than trap and
emulate, an entry of the map whose period is zero or does not divide its range's length, two entries that overlap, a
missing vector. (Every entry here is a range, first to last; log 31.) That a ratio that is not positive is the cause
reported whatever else is wrong is the model's choice (log 36). -/
def Obligations.ProfileValidationIsTheSpecs : Prop :=
  ∀ r : RawProfile, (∀ e ∈ r.map, e.first ≤ e.last) →
    ((∃ p, validate r = .ok p) ↔
      0 < r.ratioP ∧ 0 < r.ratioQ ∧ (r.policy = "trap" ∨ r.policy = "emulate") ∧
      (∀ e ∈ r.map, e.period ≠ 0 ∧ e.period ∣ e.last + 1 - e.first) ∧
      r.map.Pairwise (fun e f => e.last < f.first ∨ f.last < e.first) ∧
      r.vecNmi ≠ none ∧ r.vecReset ≠ none ∧ r.vecIrq ≠ none) ∧
    (r.ratioP ≤ 0 ∨ r.ratioQ ≤ 0 → validate r = .error .badRatio)

/-! ### Memory and the clock -/

/-- A ROM cell never changes, whatever a step does: a store, a push, or the debugger's write (R63). That the address keeps
its cell when a write is shown to the mapper is the model's choice (log 9). -/
def Obligations.RomNeverChanges : Prop :=
  ∀ (s t : State) (a : Addr), mapWellFormed s.profile.map = true → (target s a).kind = .rom → step s = .next t →
    t.stored a = s.stored a

/-- Mirroring: in an entry with period P, an address and the address k*P above it resolve to the same cell, so a byte
stored through one is loaded through the other (R65). -/
def Obligations.MirrorsShareTheirCell : Prop :=
  ∀ (s : State) (r : Region) (a : Addr) (k : Nat), mapWellFormed s.profile.map = true → Memory.wf s.mem = true →
    r ∈ s.profile.map → r.first ≤ a.toNat → a.toNat + k * r.period ≤ r.last → r.last < 65536 →
    target s (a + BitVec.ofNat 16 (k * r.period)) = target s a ∧
    s.stored (a + BitVec.ofNat 16 (k * r.period)) = s.stored a ∧
    (r.kind = .ram → ∀ t u, exec (.staAbs a) s = .next t → exec (.ldaAbs (a + BitVec.ofNat 16 (k * r.period))) t = .next u →
      u.a = s.a)

/-- Open bus: a load from an address that nothing drives, from a write-only register or from an out-of-range one returns the
last byte transferred, which is the load's own last operand byte (R38, R64, R375). BusFault: an access to an out-of-range
address goes on to the end of its instruction, a load answering `bus_latch` and a store changing no memory, and records code
2, the address, IR and the cycle; of several such accesses in an instruction the first is recorded; the machine stops at the
boundary (R372 to R375, R407). That an instruction begun with a record standing keeps it, as only `run_cycles` can begin
one, is the model's choice (log 35). -/
def Obligations.OpenBusReturnsTheLastByte : Prop :=
  ∀ (s : State) (a : Addr),
    (s.openBus a →
      (∃ t, exec (.ldaAbs a) s = .next t ∧ t.a = hi a ∧ t.busLatch = hi a) ∧
      (a.toNat < 256 → ∃ t, exec (.ldxZp (lo a)) s = .next t ∧ t.x = lo a)) ∧
    ((target s a).kind = .outOfRange → s.fault = none →
      (∀ k, k < 3 → (target s (s.pc + BitVec.ofNat 16 k)).kind ≠ .outOfRange) →
      (∃ t, exec (.ldaAbs a) s = .next t ∧ t.view = { s.view with a := hi a }.nz (hi a) ∧ t.pc = s.pc + 3 ∧
        t.fault = some ⟨.hardwareFault, 2, a, 0xAD, s.cycles + 4⟩ ∧
        (boundaryCheck t).runState = .paused ∧ (boundaryCheck t).stopReason = .fault) ∧
      (∃ t, exec (.staAbs a) s = .next t ∧ t.view = s.view ∧ t.pc = s.pc + 3 ∧
        t.fault = some ⟨.hardwareFault, 2, a, 0x8D, s.cycles + 4⟩ ∧
        (boundaryCheck t).runState = .paused ∧ (boundaryCheck t).stopReason = .fault) ∧
      (∃ t, exec (.incAbs a) s = .next t ∧ t.view.cells = s.view.cells ∧ t.pc = s.pc + 3 ∧ t.cycles = s.cycles + 6 ∧
        t.fault = some ⟨.hardwareFault, 2, a, 0xEE, s.cycles + 4⟩ ∧
        (boundaryCheck t).runState = .paused ∧ (boundaryCheck t).stopReason = .fault)) ∧
    ∀ (i : Instr) (t : State) (f : FaultRecord), i.wellFormed = true → i.executes s.profile.policy = true →
      s.fault = some f → exec i s = .next t → t.fault = some f

/-- Ratio exactness: over N cycles the PPU steps (a0 + N*p) div q times and carries (a0 + N*p) mod q (R412, R413), both
over `run_cycles(N)` from any good state and over every step. That a reset
command's seven cycles are among them, so that they move `ppu_acc`, is the model's reading (R430; log 38). -/
def Obligations.ClockRatioIsExact : Prop :=
  (∀ (s : State) (n : Nat), s.Inv → (∀ e ∈ s.inputs, e.stall = 0) →
    (runCycles n s).cycles = s.cycles + n ∧
    (runCycles n s).ppuSteps = s.ppuSteps + (s.ppuAcc + n * s.profile.ratioP) / s.profile.ratioQ ∧
    (runCycles n s).ppuAcc = (s.ppuAcc + n * s.profile.ratioP) % s.profile.ratioQ) ∧
  ∀ s t : State, s.Inv → step s = .next t → ∃ n, t.cycles = s.cycles + n ∧
    t.ppuSteps = s.ppuSteps + (s.ppuAcc + n * s.profile.ratioP) / s.profile.ratioQ ∧
    t.ppuAcc = (s.ppuAcc + n * s.profile.ratioP) % s.profile.ratioQ

/-- Sampling: at the end of every CPU cycle, halted and reset cycles included, nmi_prev and irq_sampled are the levels of
the two inputs, and a rising NMI edge is pending, unless the vector decision at the end of that cycle has just served it
(R382, R388). -/
def Obligations.InputsAreSampledEveryCycle : Prop :=
  ∀ s : State, (s.halted = true ∨ s.seq = .fetch ∨ s.queue ≠ []) → (∀ e ∈ s.inputs, e.stall = 0) →
    (stepCycle s).nmiPrev = nmiLine (stepCycle s) ∧ (stepCycle s).irqSampled = irqLine (stepCycle s) ∧
    ((s.halted = true ∨ s.seq = .fetch ∨ s.queue.head? ≠ some .pushLoVec) →
      (stepCycle s).nmiPending = (s.nmiPending || (nmiLine (stepCycle s) && !s.nmiPrev))) ∧
    (s.halted = false → s.seq ≠ .fetch → s.queue.head? = some .pushLoVec → (stepCycle s).nmiPending = false)

/-! ### Interrupts -/

/-- Polling: an instruction polls once, at the end of its penultimate cycle, with P.I as it stands there: the I before the
instruction, but RTI's restored I (R384, R394, R442). A branch polls at T1, or at T3 where it has a T4 (R385). BRK, JAM and
a trapped opcode do not poll (R386). -/
def Obligations.EachInstructionPollsItsCycle : Prop :=
  ∀ (i : Instr) (s : State), i.wellFormed = true → ∃ t, exec i s = .next t ∧
    (i.executes s.profile.policy = true → i.accessClass ∉ ([.branch, .interrupt, .halt] : List AccessClass) →
      t.intNext = pollAfter (t.cycles - s.cycles - 1) (if i.mnemonic = .rti then t.fI else s.fI) s) ∧
    (i.accessClass = .branch →
      t.intNext = pollAfter (if t.cycles = s.cycles + 4 then 3 else 1) s.fI s) ∧
    (i.accessClass = .interrupt ∨ i.accessClass = .halt ∨ i.executes s.profile.policy = false →
      t.intNext = s.intNext)

/-- Taking an interrupt: where the last poll chose one, the next tick runs the entry. Seven cycles; PC high, PC low and
Pbyte(0) are pushed; the vector is NMI's if an edge is pending at the end of T4 (and is then served), else IRQ's; I is set;
PC is the word at the vector; nothing else of the programmer's view changes (R388, R390, R391, R392, R396). -/
def Obligations.InterruptEntrySavesAndVectors : Prop :=
  ∀ s : State, Memory.wf s.mem = true → s.ticks → s.seq = .fetch → s.halted = false → s.intNext ≠ .none →
    ∃ t, step s = .next (boundaryCheck t) ∧ Ends (scriptTaken s) t ∧
      t.view = { s.view with
        sp := s.sp - 3, fI := true, cells := s.afterEntry s.pc (BitVec.ofNat 8 (s.view.pNat false)) } ∧
      t.vec = (if (sampled 4 s).nmiPending then s.profile.vecNmi else s.profile.vecIrq) ∧
      t.nmiPending = (sampled 3 { sampled 4 s with nmiPending := false }).nmiPending ∧
      (∀ w, wordAt t.stored t.vec (t.vec + 1) = some w → t.pc = w) ∧
      t.pc = join t.busLatch t.dl ∧ t.intNext = .none ∧ t.cycles = s.cycles + 7

/-- BRK: PC + 2 and Pbyte(1) are pushed, the vector is IRQ/BRK's unless an NMI edge is pending at the end of T4 (hijack),
I is set, PC is the word at the vector; seven cycles (R152, R274, R388, R390). -/
def Obligations.BrkEntersTheHandler : Prop :=
  ∀ (sig : Byte) (s : State), Memory.wf s.mem = true →
    ∃ t, exec (.brk sig) s = .next t ∧ Ends s t ∧ encode (.brk sig) = [0x00, sig] ∧
      t.view = { s.view with
        sp := s.sp - 3, fI := true, cells := s.afterEntry (s.pc + 2) (BitVec.ofNat 8 (s.view.pNat true)) } ∧
      t.vec = (if (sampled 4 s).nmiPending then s.profile.vecNmi else s.profile.vecIrq) ∧
      t.nmiPending = (sampled 3 { sampled 4 s with nmiPending := false }).nmiPending ∧
      (∀ w, wordAt t.stored t.vec (t.vec + 1) = some w → t.pc = w) ∧
      t.pc = join t.busLatch t.dl ∧ t.cycles = s.cycles + 7

/-- An illegal opcode under trap: only the opcode is fetched; PC stays at it, no register, flag or byte changes, and the
IllegalOpcode fault is recorded with the opcode's address, the opcode and the cycle; the tick that runs it leaves the
machine Paused (R321, R372, R374, R407). That its record stands where the fetch itself is out of range is the model's
reading (log 29). -/
def Obligations.IllegalOpcodesTrap : Prop :=
  ∀ (i : Instr) (s : State), i.wellFormed = true → i.documented = false → s.profile.policy = .trap →
    ∃ t, exec i s = .next t ∧ t.view = s.view ∧ t.pc = s.pc ∧ t.ir = i.opcode ∧ t.AtBoundary ∧
      t.cycles = s.cycles + 1 ∧ t.halted = s.halted ∧ t.intNext = s.intNext ∧
      t.portLog = readEvents (target s s.pc) ++ s.portLog ∧
      t.fault = some ⟨.hardwareFault, 1, s.pc, i.opcode, s.cycles + 1⟩ ∧
      (boundaryCheck t).runState = .paused ∧ (boundaryCheck t).stopReason = .fault

/-- JAM under emulate: one cycle, the opcode fetch; PC advances by one and the CPU is halted (R153, R345). -/
def Obligations.JamHaltsTheCpu : Prop :=
  ∀ (i : Instr) (s : State), i.hasRow rowsJam → s.profile.policy = .emulate →
    i.rowRight rowsJam ∧ ∃ t, exec i s = .next t ∧ t.view = s.view ∧ t.pc = s.pc + 1 ∧ t.halted = true ∧
      t.seq = .halted ∧ t.queue = [] ∧ t.cycles = s.cycles + 1 ∧ (s.noBusFault → t.fault = s.fault)

/-- Only a reset leaves the halted state; a tick of a halted machine makes no bus access, takes no interrupt, moves no PC,
and runs one cycle of the clock (R39, R345, R418). -/
def Obligations.HaltedUntilReset : Prop :=
  ∀ s t : State, s.Inv → s.halted = true → step s = .next t →
    (nextCommand s ≠ some .reset → t.halted = true) ∧
    (s.ticks → t.view = s.view ∧ t.pc = s.pc ∧ t.busLatch = s.busLatch ∧ t.portLog = s.portLog ∧
      t.cycles = s.cycles + 1)

/-! ### Loads, stores, transfers -/

/-- LDA, LDX, LDY in every mode: the register takes M, N and Z follow it, nothing else changes (R170, R171, R172). -/
def Obligations.LoadsSetTheirRegister : Prop :=
  ∀ (i : Instr) (s : State),
    (i.hasRow rowsLda → i.rowRight rowsLda ∧ ∃ t, exec i s = .next t ∧ Completes i s t ∧ OperandRead i s t ∧
      t.view = { s.view with a := t.busLatch }.nz t.busLatch) ∧
    (i.hasRow rowsLdx → i.rowRight rowsLdx ∧ ∃ t, exec i s = .next t ∧ Completes i s t ∧ OperandRead i s t ∧
      t.view = { s.view with x := t.busLatch }.nz t.busLatch) ∧
    (i.hasRow rowsLdy → i.rowRight rowsLdy ∧ ∃ t, exec i s = .next t ∧ Completes i s t ∧ OperandRead i s t ∧
      t.view = { s.view with y := t.busLatch }.nz t.busLatch)

/-- STA, STX, STY in every mode: the register's byte is written at the effective address, and only there; no register and
no flag changes (R173, R174, R175). -/
def Obligations.StoresWriteTheirRegister : Prop :=
  ∀ (i : Instr) (s : State), Memory.wf s.mem = true →
    (i.hasRow rowsSta → i.rowRight rowsSta ∧ ∃ t, exec i s = .next t ∧ Completes i s t ∧ OperandWritten i s t ∧
      t.busLatch = s.a ∧ t.view = { s.view with cells := s.afterStore t.ad s.a s.stored }) ∧
    (i.hasRow rowsStx → i.rowRight rowsStx ∧ ∃ t, exec i s = .next t ∧ Completes i s t ∧ OperandWritten i s t ∧
      t.busLatch = s.x ∧ t.view = { s.view with cells := s.afterStore t.ad s.x s.stored }) ∧
    (i.hasRow rowsSty → i.rowRight rowsSty ∧ ∃ t, exec i s = .next t ∧ Completes i s t ∧ OperandWritten i s t ∧
      t.busLatch = s.y ∧ t.view = { s.view with cells := s.afterStore t.ad s.y s.stored })

/-- TAX, TAY, TXA, TYA, TSX set N and Z from what they move; TXS writes S and no flag; a register at the byte after the
opcode sees the dummy read (R124, R176 to R181). -/
def Obligations.TransfersMoveRegisters : Prop :=
  ∀ (i : Instr) (s : State),
    (i.hasRow rowsTax → i.rowRight rowsTax ∧ ∃ t, exec i s = .next t ∧ Completes i s t ∧
      t.portLog = readEvents (target s (s.pc + 1)) ++ readEvents (target s s.pc) ++ s.portLog ∧
      t.view = { s.view with x := s.a }.nz s.a) ∧
    (i.hasRow rowsTay → i.rowRight rowsTay ∧ ∃ t, exec i s = .next t ∧ Completes i s t ∧
      t.portLog = readEvents (target s (s.pc + 1)) ++ readEvents (target s s.pc) ++ s.portLog ∧
      t.view = { s.view with y := s.a }.nz s.a) ∧
    (i.hasRow rowsTxa → i.rowRight rowsTxa ∧ ∃ t, exec i s = .next t ∧ Completes i s t ∧
      t.portLog = readEvents (target s (s.pc + 1)) ++ readEvents (target s s.pc) ++ s.portLog ∧
      t.view = { s.view with a := s.x }.nz s.x) ∧
    (i.hasRow rowsTya → i.rowRight rowsTya ∧ ∃ t, exec i s = .next t ∧ Completes i s t ∧
      t.portLog = readEvents (target s (s.pc + 1)) ++ readEvents (target s s.pc) ++ s.portLog ∧
      t.view = { s.view with a := s.y }.nz s.y) ∧
    (i.hasRow rowsTsx → i.rowRight rowsTsx ∧ ∃ t, exec i s = .next t ∧ Completes i s t ∧
      t.portLog = readEvents (target s (s.pc + 1)) ++ readEvents (target s s.pc) ++ s.portLog ∧
      t.view = { s.view with x := s.sp }.nz s.sp) ∧
    (i.hasRow rowsTxs → i.rowRight rowsTxs ∧ ∃ t, exec i s = .next t ∧ Completes i s t ∧
      t.portLog = readEvents (target s (s.pc + 1)) ++ readEvents (target s s.pc) ++ s.portLog ∧
      t.view = { s.view with sp := s.x })

/-! ### Stack -/

/-- PHA writes A, and PHP writes Pbyte(1), at the old S, which then drops by one; nothing else changes (R24, R27, R200,
R201). -/
def Obligations.PushesWriteAtTheStackPointer : Prop :=
  ∀ (i : Instr) (s : State), Memory.wf s.mem = true →
    (i.hasRow rowsPha → i.rowRight rowsPha ∧ ∃ t, exec i s = .next t ∧ Completes i s t ∧
      t.view = { s.view with sp := s.sp - 1, cells := s.afterPush s.sp s.a s.stored } ∧
      ∃ rest, t.portLog = writeEvents (target s (stackAddr s.sp)) s.a ++ rest) ∧
    (i.hasRow rowsPhp → i.rowRight rowsPhp ∧ ∃ t, exec i s = .next t ∧ Completes i s t ∧
      t.view = { s.view with
        sp := s.sp - 1, cells := s.afterPush s.sp (BitVec.ofNat 8 (s.view.pNat true)) s.stored })

/-- PLA and PLP read at S + 1 and raise S by one, after a dummy read at the old S: PLA loads A and sets N and Z, PLP loads
the six flags and drops bits 5 and 4 (R24, R28, R151, R202, R203). A register at any of the four addresses read sees its
read. -/
def Obligations.PullsReadAboveTheStackPointer : Prop :=
  ∀ (i : Instr) (s : State),
    (i.hasRow rowsPla → i.rowRight rowsPla ∧ ∃ t, exec i s = .next t ∧ Completes i s t ∧
      (∀ v, s.stored (stackAddr (s.sp + 1)) = some v → t.busLatch = v) ∧
      t.portLog = readEvents (target s (stackAddr (s.sp + 1))) ++ readEvents (target s (stackAddr s.sp)) ++
        readEvents (target s (s.pc + 1)) ++ readEvents (target s s.pc) ++ s.portLog ∧
      t.view = { s.view with a := t.busLatch, sp := s.sp + 1 }.nz t.busLatch) ∧
    (i.hasRow rowsPlp → i.rowRight rowsPlp ∧ ∃ t, exec i s = .next t ∧ Completes i s t ∧
      (∀ v, s.stored (stackAddr (s.sp + 1)) = some v → t.busLatch = v) ∧
      t.portLog = readEvents (target s (stackAddr (s.sp + 1))) ++ readEvents (target s (stackAddr s.sp)) ++
        readEvents (target s (s.pc + 1)) ++ readEvents (target s s.pc) ++ s.portLog ∧
      t.view = { s.view with sp := s.sp + 1 }.loadP t.busLatch)

/-! ### Arithmetic and logic -/

/-- ADC in every mode: with r = A + M + C as a natural number, A is r mod 256, C is r > 255, V says that A and M had one
sign and the result the other, N and Z follow the result; D plays no part (R220, R224). -/
def Obligations.AdcAddsWithCarry : Prop :=
  ∀ (i : Instr) (s : State), i.hasRow rowsAdc → i.rowRight rowsAdc ∧
    ∃ t, exec i s = .next t ∧ Completes i s t ∧ OperandRead i s t ∧
      t.view =
        { s.view with
          a := BitVec.ofNat 8 (s.a.toNat + t.busLatch.toNat + flagNat s.fC)
          fC := decide (255 < s.a.toNat + t.busLatch.toNat + flagNat s.fC)
          fV := decide (s.a.msb = t.busLatch.msb ∧
            (BitVec.ofNat 8 (s.a.toNat + t.busLatch.toNat + flagNat s.fC)).msb ≠ s.a.msb) }.nz
          (BitVec.ofNat 8 (s.a.toNat + t.busLatch.toNat + flagNat s.fC))

/-- SBC in every mode, and USBC: A is A - M - (1 - C) mod 256, C is "no borrow" as natural numbers, V says that the signed
difference is outside -128..127, N and Z follow the result (R221, R225, R336). -/
def Obligations.SbcSubtractsWithBorrow : Prop :=
  ∀ (i : Instr) (s : State),
    (i.hasRow rowsSbc ∨ (i.hasRow rowsUsbc ∧ s.profile.policy = .emulate)) →
    (i.rowRight rowsSbc ∨ i.rowRight rowsUsbc) ∧
    ∃ t, exec i s = .next t ∧ Completes i s t ∧ OperandRead i s t ∧
      t.view =
        { s.view with
          a := BitVec.ofInt 8 ((s.a.toNat : Int) - t.busLatch.toNat - (1 - flagNat s.fC))
          fC := decide (t.busLatch.toNat + (1 - flagNat s.fC) ≤ s.a.toNat)
          fV := decide (s.a.toInt - t.busLatch.toInt - (1 - flagNat s.fC) < -128 ∨
            127 < s.a.toInt - t.busLatch.toInt - (1 - flagNat s.fC)) }.nz
          (BitVec.ofInt 8 ((s.a.toNat : Int) - t.busLatch.toNat - (1 - flagNat s.fC)))

/-- AND, ORA, EOR in every mode: A takes the bitwise result, N and Z follow it (R226, R227, R228). -/
def Obligations.LogicCombinesWithA : Prop :=
  ∀ (i : Instr) (s : State),
    (i.hasRow rowsAnd → i.rowRight rowsAnd ∧ ∃ t, exec i s = .next t ∧ Completes i s t ∧ OperandRead i s t ∧
      t.view = { s.view with a := s.a &&& t.busLatch }.nz (s.a &&& t.busLatch)) ∧
    (i.hasRow rowsOra → i.rowRight rowsOra ∧ ∃ t, exec i s = .next t ∧ Completes i s t ∧ OperandRead i s t ∧
      t.view = { s.view with a := s.a ||| t.busLatch }.nz (s.a ||| t.busLatch)) ∧
    (i.hasRow rowsEor → i.rowRight rowsEor ∧ ∃ t, exec i s = .next t ∧ Completes i s t ∧ OperandRead i s t ∧
      t.view = { s.view with a := s.a ^^^ t.busLatch }.nz (s.a ^^^ t.busLatch))

/-- CMP, CPX, CPY in every mode: C is "register not below M", Z is equality, N is bit 7 of the wrapped difference; V and
every register stay (R222, R229, R230, R231). -/
def Obligations.ComparesSetCzn : Prop :=
  ∀ (i : Instr) (s : State),
    (i.hasRow rowsCmp → i.rowRight rowsCmp ∧ ∃ t, exec i s = .next t ∧ Completes i s t ∧ OperandRead i s t ∧
      t.view = { s.view with
        fC := decide (t.busLatch.toNat ≤ s.a.toNat), fZ := decide (s.a = t.busLatch), fN := (s.a - t.busLatch).msb }) ∧
    (i.hasRow rowsCpx → i.rowRight rowsCpx ∧ ∃ t, exec i s = .next t ∧ Completes i s t ∧ OperandRead i s t ∧
      t.view = { s.view with
        fC := decide (t.busLatch.toNat ≤ s.x.toNat), fZ := decide (s.x = t.busLatch), fN := (s.x - t.busLatch).msb }) ∧
    (i.hasRow rowsCpy → i.rowRight rowsCpy ∧ ∃ t, exec i s = .next t ∧ Completes i s t ∧ OperandRead i s t ∧
      t.view = { s.view with
        fC := decide (t.busLatch.toNat ≤ s.y.toNat), fZ := decide (s.y = t.busLatch), fN := (s.y - t.busLatch).msb })

/-- BIT: Z tests A and M, N and V are bits 7 and 6 of M, A stays (R232). -/
def Obligations.BitTestsMemory : Prop :=
  ∀ (i : Instr) (s : State), i.hasRow rowsBit → i.rowRight rowsBit ∧
    ∃ t, exec i s = .next t ∧ Completes i s t ∧ OperandRead i s t ∧
      t.view = { s.view with
        fZ := decide (s.a &&& t.busLatch = 0), fN := t.busLatch.getLsbD 7, fV := t.busLatch.getLsbD 6 }

/-- INC and DEC on memory: M ± 1 mod 256 is written back after the dummy write of M; N and Z follow it, C stays (R73, R233,
R234). -/
def Obligations.IncDecMemory : Prop :=
  ∀ (i : Instr) (s : State), Memory.wf s.mem = true →
    (i.hasRow rowsInc → i.rowRight rowsInc ∧ ∃ t, exec i s = .next t ∧ Completes i s t ∧ OperandModified i s t ∧
      t.busLatch = BitVec.ofNat 8 (t.dl.toNat + 1) ∧
      t.view = { s.view with cells := s.afterStore t.ad t.busLatch s.stored }.nz t.busLatch) ∧
    (i.hasRow rowsDec → i.rowRight rowsDec ∧ ∃ t, exec i s = .next t ∧ Completes i s t ∧ OperandModified i s t ∧
      t.busLatch = BitVec.ofNat 8 (t.dl.toNat + 255) ∧
      t.view = { s.view with cells := s.afterStore t.ad t.busLatch s.stored }.nz t.busLatch)

/-- INX, INY, DEX, DEY: the register ± 1 mod 256, N and Z follow it (R235 to R238). -/
def Obligations.IncDecRegisters : Prop :=
  ∀ (i : Instr) (s : State),
    (i.hasRow rowsInx → i.rowRight rowsInx ∧ ∃ t, exec i s = .next t ∧ Completes i s t ∧
      t.view = { s.view with x := BitVec.ofNat 8 (s.x.toNat + 1) }.nz (BitVec.ofNat 8 (s.x.toNat + 1))) ∧
    (i.hasRow rowsIny → i.rowRight rowsIny ∧ ∃ t, exec i s = .next t ∧ Completes i s t ∧
      t.view = { s.view with y := BitVec.ofNat 8 (s.y.toNat + 1) }.nz (BitVec.ofNat 8 (s.y.toNat + 1))) ∧
    (i.hasRow rowsDex → i.rowRight rowsDex ∧ ∃ t, exec i s = .next t ∧ Completes i s t ∧
      t.view = { s.view with x := BitVec.ofNat 8 (s.x.toNat + 255) }.nz (BitVec.ofNat 8 (s.x.toNat + 255))) ∧
    (i.hasRow rowsDey → i.rowRight rowsDey ∧ ∃ t, exec i s = .next t ∧ Completes i s t ∧
      t.view = { s.view with y := BitVec.ofNat 8 (s.y.toNat + 255) }.nz (BitVec.ofNat 8 (s.y.toNat + 255)))

/-- ASL, LSR, ROL, ROR on A and on memory: the result of R223 as arithmetic (double, half, the old C entering), C is the
bit shifted out, N and Z follow the result (R223, R239 to R242). -/
def Obligations.ShiftsAndRotates : Prop :=
  ∀ (i : Instr) (s : State) (rows : Rows) (result : Byte → Byte) (out : Byte → Bool),
    Memory.wf s.mem = true →
    ((rows = rowsAsl ∧ result = (fun v => BitVec.ofNat 8 (2 * v.toNat)) ∧ out = fun v => v.getLsbD 7) ∨
     (rows = rowsLsr ∧ result = (fun v => BitVec.ofNat 8 (v.toNat / 2)) ∧ out = fun v => v.getLsbD 0) ∨
     (rows = rowsRol ∧ result = (fun v => BitVec.ofNat 8 (2 * v.toNat + flagNat s.fC)) ∧ out = fun v => v.getLsbD 7) ∨
     (rows = rowsRor ∧ result = (fun v => BitVec.ofNat 8 (v.toNat / 2 + 128 * flagNat s.fC)) ∧
        out = fun v => v.getLsbD 0)) →
    i.hasRow rows → i.rowRight rows ∧
      ∃ t, exec i s = .next t ∧ Completes i s t ∧
        (i.mode = .acc → t.view = { s.view with a := result s.a, fC := out s.a }.nz (result s.a)) ∧
        (i.mode ≠ .acc → OperandModified i s t ∧ t.busLatch = result t.dl ∧
          t.view =
            { s.view with fC := out t.dl, cells := s.afterStore t.ad t.busLatch s.stored }.nz t.busLatch)

/-! ### Control -/

/-- JMP: absolute to its operand, indirect to the word at its pointer, the high byte from the pointer's own page; nothing
but PC changes (R71, R145, R146, R270, R445). -/
def Obligations.JmpSetsPc : Prop :=
  ∀ (a : Addr) (s : State),
    (encode (.jmpAbs a) = [0x4C, lo a, hi a] ∧ ∃ t, exec (.jmpAbs a) s = .next t ∧ Ends s t ∧ t.view = s.view ∧
      t.pc = a ∧ t.cycles = s.cycles + 3) ∧
    (encode (.jmpInd a) = [0x6C, lo a, hi a] ∧ ∃ t, exec (.jmpInd a) s = .next t ∧ Ends s t ∧ t.view = s.view ∧
      t.pc = join t.busLatch t.dl ∧ (∀ w, wordAt s.stored a (join (hi a) (lo a + 1)) = some w → t.pc = w) ∧
      t.cycles = s.cycles + 5)

/-- JSR pushes the address of its own last byte, high byte first, and jumps; S drops by two and nothing else changes (R147,
R271). -/
def Obligations.JsrPushesItsReturn : Prop :=
  ∀ (a : Addr) (s : State), Memory.wf s.mem = true →
    encode (.jsr a) = [0x20, lo a, hi a] ∧ ∃ t, exec (.jsr a) s = .next t ∧ Ends s t ∧
      t.view = { s.view with
        sp := s.sp - 2
        cells := s.afterPush (s.sp - 1) (lo (s.pc + 2)) (s.afterPush s.sp (hi (s.pc + 2)) s.stored) } ∧
      t.pc = a ∧ t.cycles = s.cycles + 6

/-- RTS pulls PC and adds 1; RTI pulls P, then PC, and adds nothing. S rises by two and by three; RTI writes all six
flags, RTS none (R28, R148, R149, R272, R273, R394). -/
def Obligations.ReturnsPullPc : Prop :=
  ∀ s : State,
    (encode .rts = [0x60] ∧ ∃ t, exec .rts s = .next t ∧ Ends s t ∧ t.view = { s.view with sp := s.sp + 2 } ∧
      (∀ w, wordAt s.stored (stackAddr (s.sp + 1)) (stackAddr (s.sp + 2)) = some w → t.pc = w + 1) ∧
      t.cycles = s.cycles + 6) ∧
    (encode .rti = [0x40] ∧ ∃ t p, exec .rti s = .next t ∧ Ends s t ∧
      (∀ v, s.stored (stackAddr (s.sp + 1)) = some v → p = v) ∧
      t.view = { s.view with sp := s.sp + 3 }.loadP p ∧
      (∀ w, wordAt s.stored (stackAddr (s.sp + 2)) (stackAddr (s.sp + 3)) = some w → t.pc = w) ∧
      t.cycles = s.cycles + 6)

/-- The eight branches, each by its own opcode: taken exactly on its condition, to PC + 2 plus the signed offset; 2 cycles, 3 when taken, 4 when
taken to another page; nothing but PC changes (R144, R275 to R283). -/
def Obligations.BranchesFollowTheirFlag : Prop :=
  ∀ (s : State) (o : Byte) (i : Instr) (op : Byte) (taken : Bool),
    (i, op, taken) ∈ ([ (.bpl o, 0x10, !s.fN), (.bmi o, 0x30, s.fN), (.bvc o, 0x50, !s.fV), (.bvs o, 0x70, s.fV),
      (.bcc o, 0x90, !s.fC), (.bcs o, 0xB0, s.fC), (.bne o, 0xD0, !s.fZ),
      (.beq o, 0xF0, s.fZ) ] : List (Instr × Byte × Bool)) →
    encode i = [op, o] ∧ decode [op, o] = .ok (i, []) ∧ i.rowRight rowsBranch ∧
    ∃ t, exec i s = .next t ∧ Ends s t ∧ t.view = s.view ∧
      t.pc = (if taken then BitVec.ofInt 16 ((s.pc.toNat : Int) + 2 + o.toInt) else s.pc + 2) ∧
      t.cycles = s.cycles + 2 + (if taken then 1 else 0) +
        (if taken ∧ hi t.pc ≠ hi (s.pc + 2) then 1 else 0)

/-- CLC, SEC, CLI, SEI, CLV, CLD, SED write their one flag and nothing else (R284 to R290). -/
def Obligations.FlagInstructionsWriteOneFlag : Prop :=
  ∀ (i : Instr) (s : State) (rows : Rows) (w : View),
    (rows, w) ∈ ([ (rowsClc, { s.view with fC := false }), (rowsSec, { s.view with fC := true }),
      (rowsCli, { s.view with fI := false }), (rowsSei, { s.view with fI := true }),
      (rowsClv, { s.view with fV := false }), (rowsCld, { s.view with fD := false }),
      (rowsSed, { s.view with fD := true }) ] : List (Rows × View)) →
    i.hasRow rows → i.rowRight rows ∧ ∃ t, exec i s = .next t ∧ Completes i s t ∧ t.view = w

/-- NOP, documented and undocumented: PC advances by the length, the operand is read (a register at the effective
address, or at the byte after an implied one, sees the read), and no register, flag or byte changes (R124, R291, R323). -/
def Obligations.NopsChangeNothing : Prop :=
  ∀ (i : Instr) (s : State),
    (i.hasRow rowsNop → i.rowRight rowsNop ∧ ∃ t, exec i s = .next t ∧ Completes i s t ∧ t.view = s.view ∧
      t.portLog = readEvents (target s (s.pc + 1)) ++ readEvents (target s s.pc) ++ s.portLog) ∧
    (i.hasRow rowsUndocNop → s.profile.policy = .emulate → i.rowRight rowsUndocNop ∧
      ∃ t, exec i s = .next t ∧ Completes i s t ∧ t.view = s.view ∧ (i.mode ≠ .imp → OperandRead i s t) ∧
        (i.mode = .imp →
          t.portLog = readEvents (target s (s.pc + 1)) ++ readEvents (target s s.pc) ++ s.portLog))

/-! ### Undocumented opcodes, under emulate -/

/-- SLO, RLA, SRE: the shifted or rotated M is written back and then combined into A; C is the bit shifted out, N and Z
follow A (R223, R324, R325, R326). -/
def Obligations.ShiftAndCombine : Prop :=
  ∀ (i : Instr) (s : State), Memory.wf s.mem = true → s.profile.policy = .emulate →
    (i.hasRow rowsSlo → i.rowRight rowsSlo ∧ ∃ t, exec i s = .next t ∧ Completes i s t ∧ OperandModified i s t ∧
      t.busLatch = BitVec.ofNat 8 (2 * t.dl.toNat) ∧
      t.view =
        { s.view with
          a := s.a ||| t.busLatch, fC := t.dl.getLsbD 7
          cells := s.afterStore t.ad t.busLatch s.stored }.nz (s.a ||| t.busLatch)) ∧
    (i.hasRow rowsRla → i.rowRight rowsRla ∧ ∃ t, exec i s = .next t ∧ Completes i s t ∧ OperandModified i s t ∧
      t.busLatch = BitVec.ofNat 8 (2 * t.dl.toNat + flagNat s.fC) ∧
      t.view =
        { s.view with
          a := s.a &&& t.busLatch, fC := t.dl.getLsbD 7
          cells := s.afterStore t.ad t.busLatch s.stored }.nz (s.a &&& t.busLatch)) ∧
    (i.hasRow rowsSre → i.rowRight rowsSre ∧ ∃ t, exec i s = .next t ∧ Completes i s t ∧ OperandModified i s t ∧
      t.busLatch = BitVec.ofNat 8 (t.dl.toNat / 2) ∧
      t.view =
        { s.view with
          a := s.a ^^^ t.busLatch, fC := t.dl.getLsbD 0
          cells := s.afterStore t.ad t.busLatch s.stored }.nz (s.a ^^^ t.busLatch))

/-- RRA rotates M right, writes it back and adds it to A with the carry just rotated out; ISC increments M, writes it back
and subtracts it from A; N, V, Z, C come from the sum and the difference. DCP decrements M, writes it back and compares A
with it (R220, R221, R222, R327, R330, R331). -/
def Obligations.ModifyAndCombineArithmetic : Prop :=
  ∀ (i : Instr) (s : State), Memory.wf s.mem = true → s.profile.policy = .emulate →
    (i.hasRow rowsRra → i.rowRight rowsRra ∧ ∃ t, exec i s = .next t ∧ Completes i s t ∧ OperandModified i s t ∧
      t.busLatch = BitVec.ofNat 8 (t.dl.toNat / 2 + 128 * flagNat s.fC) ∧
      t.view =
        { s.view with
          a := BitVec.ofNat 8 (s.a.toNat + t.busLatch.toNat + t.dl.toNat % 2)
          fC := decide (255 < s.a.toNat + t.busLatch.toNat + t.dl.toNat % 2)
          fV := decide (s.a.msb = t.busLatch.msb ∧ t.a.msb ≠ s.a.msb)
          cells := s.afterStore t.ad t.busLatch s.stored }.nz
          (BitVec.ofNat 8 (s.a.toNat + t.busLatch.toNat + t.dl.toNat % 2))) ∧
    (i.hasRow rowsIsc → i.rowRight rowsIsc ∧ ∃ t, exec i s = .next t ∧ Completes i s t ∧ OperandModified i s t ∧
      t.busLatch = BitVec.ofNat 8 (t.dl.toNat + 1) ∧
      t.view =
        { s.view with
          a := BitVec.ofInt 8 ((s.a.toNat : Int) - t.busLatch.toNat - (1 - flagNat s.fC))
          fC := decide (t.busLatch.toNat + (1 - flagNat s.fC) ≤ s.a.toNat)
          fV := decide (s.a.toInt - t.busLatch.toInt - (1 - flagNat s.fC) < -128 ∨
            127 < s.a.toInt - t.busLatch.toInt - (1 - flagNat s.fC))
          cells := s.afterStore t.ad t.busLatch s.stored }.nz
          (BitVec.ofInt 8 ((s.a.toNat : Int) - t.busLatch.toNat - (1 - flagNat s.fC)))) ∧
    (i.hasRow rowsDcp → i.rowRight rowsDcp ∧ ∃ t, exec i s = .next t ∧ Completes i s t ∧ OperandModified i s t ∧
      t.busLatch = BitVec.ofNat 8 (t.dl.toNat + 255) ∧
      t.view = { s.view with
        fC := decide (t.busLatch.toNat ≤ s.a.toNat), fZ := decide (s.a = t.busLatch), fN := (s.a - t.busLatch).msb
        cells := s.afterStore t.ad t.busLatch s.stored })

/-- SAX stores A and X; LAX loads both; LAS loads A, X and S with M and S (R328, R329, R337). -/
def Obligations.CombinedLoadsAndStores : Prop :=
  ∀ (i : Instr) (s : State), Memory.wf s.mem = true → s.profile.policy = .emulate →
    (i.hasRow rowsSax → i.rowRight rowsSax ∧ ∃ t, exec i s = .next t ∧ Completes i s t ∧ OperandWritten i s t ∧
      t.busLatch = s.a &&& s.x ∧ t.view = { s.view with cells := s.afterStore t.ad (s.a &&& s.x) s.stored }) ∧
    (i.hasRow rowsLax → i.rowRight rowsLax ∧ ∃ t, exec i s = .next t ∧ Completes i s t ∧ OperandRead i s t ∧
      t.view = { s.view with a := t.busLatch, x := t.busLatch }.nz t.busLatch) ∧
    (i.hasRow rowsLas → i.rowRight rowsLas ∧ ∃ t, exec i s = .next t ∧ Completes i s t ∧ OperandRead i s t ∧
      t.view =
        { s.view with a := t.busLatch &&& s.sp, x := t.busLatch &&& s.sp, sp := t.busLatch &&& s.sp }.nz
          (t.busLatch &&& s.sp))

/-- ANC, ALR, ARR, SBX on the immediate byte, with their special flags (R332 to R335). -/
def Obligations.ImmediateCombinations : Prop :=
  ∀ (i : Instr) (s : State), s.profile.policy = .emulate →
    (i.hasRow rowsAnc → i.rowRight rowsAnc ∧ ∃ t, exec i s = .next t ∧ Completes i s t ∧
      t.view = { s.view with a := s.a &&& i.operandLo, fC := (s.a &&& i.operandLo).msb }.nz (s.a &&& i.operandLo)) ∧
    (i.hasRow rowsAlr → i.rowRight rowsAlr ∧ ∃ t, exec i s = .next t ∧ Completes i s t ∧
      t.view =
        { s.view with
          a := BitVec.ofNat 8 ((s.a &&& i.operandLo).toNat / 2), fC := (s.a &&& i.operandLo).getLsbD 0 }.nz
          (BitVec.ofNat 8 ((s.a &&& i.operandLo).toNat / 2))) ∧
    (i.hasRow rowsArr → i.rowRight rowsArr ∧ ∃ t, exec i s = .next t ∧ Completes i s t ∧
      t.a = BitVec.ofNat 8 ((s.a &&& i.operandLo).toNat / 2 + 128 * flagNat s.fC) ∧
      t.view =
        { s.view with
          a := t.a, fC := t.a.getLsbD 6, fV := xor (t.a.getLsbD 6) (t.a.getLsbD 5) }.nz t.a) ∧
    (i.hasRow rowsSbx → i.rowRight rowsSbx ∧ ∃ t, exec i s = .next t ∧ Completes i s t ∧
      t.view =
        { s.view with
          x := (s.a &&& s.x) - i.operandLo, fC := decide (i.operandLo.toNat ≤ (s.a &&& s.x).toNat) }.nz
          ((s.a &&& s.x) - i.operandLo))

/-- ANE and LXA: with a magic constant, the formula; with "any value", A is any byte between the bounds of R338 and R339
(a free value: nothing is claimed of it but the bounds). N and Z follow the A written; LXA writes X too (R338, R339). -/
def Obligations.UnstableConstants : Prop :=
  ∀ (i : Instr) (s : State), s.profile.policy = .emulate →
    (i.hasRow rowsAne → i.rowRight rowsAne ∧ ∃ t, exec i s = .next t ∧ Completes i s t ∧
      (∀ magic, s.profile.aneMagic = some magic → t.a = (s.a ||| magic) &&& s.x &&& i.operandLo) ∧
      t.a &&& (s.x &&& i.operandLo) = t.a ∧ t.a ||| (s.a &&& s.x &&& i.operandLo) = t.a ∧
      t.view = { s.view with a := t.a }.nz t.a) ∧
    (i.hasRow rowsLxa → i.rowRight rowsLxa ∧ ∃ t, exec i s = .next t ∧ Completes i s t ∧
      (∀ magic, s.profile.lxaMagic = some magic → t.a = (s.a ||| magic) &&& i.operandLo) ∧
      t.a &&& i.operandLo = t.a ∧ t.a ||| (s.a &&& i.operandLo) = t.a ∧
      t.view = { s.view with a := t.a, x := t.a }.nz t.a)

/-- SHA, SHX, SHY, TAS: under `formula` the byte written is the register value and (H + 1), and where the index crosses a
page it is also the address's high byte; under `any` both are free, and the low byte of the address, the cycles and the
registers are the same. TAS sets S to A and X first (R340 to R344). -/
def Obligations.UnstableStores : Prop :=
  ∀ (i : Instr) (s : State) (rows : Rows) (value sp : Byte), Memory.wf s.mem = true → s.profile.policy = .emulate →
    (rows, value, sp) ∈ ([ (rowsSha, s.a &&& s.x, s.sp), (rowsShx, s.x, s.sp), (rowsShy, s.y, s.sp),
      (rowsTas, s.a &&& s.x, s.a &&& s.x) ] : List (Rows × Byte × Byte)) →
    i.hasRow rows → i.rowRight rows ∧ ∃ t, exec i s = .next t ∧ Completes i s t ∧
      t.view = { s.view with sp := sp, cells := s.afterStore t.ad t.busLatch s.stored } ∧
      (∀ ea, effective i s = some ea → lo t.ad = lo ea) ∧
      (s.profile.storeModel = .formula →
        (∀ h, baseHigh i s = some h → t.busLatch = value &&& (h + 1)) ∧
        ∀ ea crossed, effective i s = some ea → crosses i s = some crossed →
          t.ad = if crossed then join t.busLatch (lo ea) else ea)

/-! ### Whole-machine rules -/

/-- The write lists of R21 to R24 and R29 to R34: an instruction whose mnemonic is not on a register's or a flag's list
leaves it; so A, X, Y, S and each flag have no other writer. -/
def Obligations.RegistersAndFlagsHaveNoOtherWriter : Prop :=
  ∀ (i : Instr) (s t : State), i.wellFormed = true → exec i s = .next t →
    (i.mnemonic ∉ ([ .lda, .pla, .txa, .tya, .adc, .sbc, .and, .ora, .eor, .asl, .lsr, .rol, .ror, .lax, .slo, .rla,
        .sre, .rra, .isc, .anc, .alr, .arr, .ane, .lxa, .las, .usbc ] : List Mnemonic) → t.a = s.a) ∧
    (i.mnemonic ∉ ([.ldx, .tax, .tsx, .inx, .dex, .lax, .sbx, .lxa, .las] : List Mnemonic) → t.x = s.x) ∧
    (i.mnemonic ∉ ([.ldy, .tay, .iny, .dey] : List Mnemonic) → t.y = s.y) ∧
    (i.mnemonic ∉ ([.txs, .pha, .php, .pla, .plp, .jsr, .rts, .rti, .brk, .las, .tas] : List Mnemonic) →
      t.sp = s.sp) ∧
    (i.mnemonic ∉ ([ .adc, .sbc, .cmp, .cpx, .cpy, .asl, .lsr, .rol, .ror, .clc, .sec, .plp, .rti, .slo, .rla, .sre,
        .rra, .dcp, .isc, .anc, .alr, .arr, .sbx, .usbc ] : List Mnemonic) → t.fC = s.fC) ∧
    (i.mnemonic ∉ ([ .lda, .ldx, .ldy, .tax, .tay, .txa, .tya, .tsx, .pla, .adc, .sbc, .and, .ora, .eor, .cmp, .cpx,
        .cpy, .bit, .inc, .dec, .inx, .iny, .dex, .dey, .asl, .lsr, .rol, .ror, .plp, .rti ] : List Mnemonic) →
      i.mnemonic ∉ ([ .lax, .slo, .rla, .sre, .rra, .dcp, .isc, .anc, .alr, .arr, .sbx, .las, .ane, .lxa,
        .usbc ] : List Mnemonic) → t.fZ = s.fZ ∧ t.fN = s.fN) ∧
    (i.mnemonic ∉ ([.sei, .cli, .plp, .rti, .brk] : List Mnemonic) → t.fI = s.fI) ∧
    (i.mnemonic ∉ ([.sed, .cld, .plp, .rti] : List Mnemonic) → t.fD = s.fD) ∧
    (i.mnemonic ∉ ([.adc, .sbc, .bit, .clv, .plp, .rti, .rra, .isc, .arr, .usbc] : List Mnemonic) → t.fV = s.fV)

/-- D has no arithmetic effect: only PHP and BRK read it, and only SED, CLD, PLP and RTI write it; every other instruction
does the same whatever D holds, in every field of the state, and leaves it (R32, R243). -/
def Obligations.DecimalFlagHasNoEffect : Prop :=
  ∀ (i : Instr) (s t : State) (d : Bool),
    i.mnemonic ∉ ([.php, .brk, .plp, .rti, .sed, .cld] : List Mnemonic) → exec i s = .next t →
    exec i { s with fD := d } = .next { t with fD := d }

/-- Only a write-class or read-modify-write instruction, a push, JSR or BRK stores: every other instruction leaves every
byte of memory (R75, R96). -/
def Obligations.OnlyStoringInstructionsChangeMemory : Prop :=
  ∀ (i : Instr) (s t : State), i.wellFormed = true → exec i s = .next t →
    (i.accessClass ∈ ([.read, .implied, .branch, .halt] : List AccessClass) ∨
      i.mnemonic ∈ ([.pla, .plp, .jmp, .rts, .rti] : List Mnemonic)) →
    t.mem = s.mem

/-! ### The debugger -/

/-- The boundary check, in R404's order: a fault, a finished step, a pause, a finished frame, then the first enabled
breakpoint at PC whose condition holds, where an opcode fetch is next. It stops the machine and changes nothing else: the
request is cleared by the pause alone, and where no case applies, as where every breakpoint at PC is disabled or has a false
condition, the state is as it was (R403, R404, R407). -/
def Obligations.BoundaryCheckStopsInOrder : Prop :=
  ∀ u : State,
    boundaryCheck u =
      { u with
        runState := (boundaryCheck u).runState
        stopReason := (boundaryCheck u).stopReason
        pauseRequested := (boundaryCheck u).pauseRequested } ∧
    (u.fault ≠ none → (boundaryCheck u).runState = .paused ∧ (boundaryCheck u).stopReason = .fault ∧
      (boundaryCheck u).pauseRequested = u.pauseRequested) ∧
    (u.fault = none → u.runState = .steppingInstruction →
      (boundaryCheck u).runState = .paused ∧ (boundaryCheck u).stopReason = .stepDone ∧
        (boundaryCheck u).pauseRequested = u.pauseRequested) ∧
    (u.fault = none → u.runState ≠ .steppingInstruction → u.pauseRequested = true →
      (boundaryCheck u).runState = .paused ∧ (boundaryCheck u).stopReason = .command ∧
        (boundaryCheck u).pauseRequested = false) ∧
    (u.fault = none → u.pauseRequested = false → u.runState = .steppingFrame → u.frameSeen = true →
      (boundaryCheck u).runState = .paused ∧ (boundaryCheck u).stopReason = .frameDone ∧
        (boundaryCheck u).pauseRequested = false) ∧
    (u.fault = none → u.pauseRequested = false → u.runState ≠ .steppingInstruction →
      ¬ (u.runState = .steppingFrame ∧ u.frameSeen = true) →
      (∀ before b after, u.halted = false → u.intNext = .none → u.breakpoints = before ++ b :: after →
        b.enabled = true → b.address = u.pc → (∀ c, b.condition = some c → Config.conditionHolds c (view u) = true) →
        (∀ e ∈ before, e.enabled = false ∨ e.address ≠ u.pc ∨
          ∃ c, e.condition = some c ∧ Config.conditionHolds c (view u) = false) →
        (boundaryCheck u).runState = .paused ∧ (boundaryCheck u).stopReason = .breakpoint b.id ∧
          (boundaryCheck u).pauseRequested = false) ∧
      ((u.halted = true ∨ u.intNext ≠ .none ∨
          ∀ e ∈ u.breakpoints, e.enabled = false ∨ e.address ≠ u.pc ∨
            ∃ c, e.condition = some c ∧ Config.conditionHolds c (view u) = false) →
        boundaryCheck u = u))

/-- Run, step and pause. While Paused: `run` clears the fault, the request and the stop reason and sets Running;
`step_frame` also clears frame_seen; `step_instruction` runs exactly one sequence and is Paused after it; `pause` changes
nothing; a tick does nothing. While Running, `pause` leaves a request (R400, R401, R402, R405, R406). -/
def Obligations.RunStepAndPauseCommands : Prop :=
  ∀ s : State,
    (s.runState = .paused → nextCommand s = some .continueExecution →
      step s = .next { scriptTaken s with
        fault := none, pauseRequested := false, stopReason := .none, runState := .running }) ∧
    (s.runState = .paused → nextCommand s = some .stepFrame →
      step s = .next { scriptTaken s with
        fault := none, pauseRequested := false, stopReason := .none, runState := .steppingFrame
        frameSeen := false }) ∧
    (s.runState = .paused → nextCommand s = some .stepInstruction →
      ∃ u t, runSequence { scriptTaken s with
          fault := none, pauseRequested := false, stopReason := .none, runState := .steppingInstruction } = .next u ∧
        step s = .next t ∧ t.runState = .paused ∧ t.stopReason = (if u.fault = none then .stepDone else .fault) ∧
        t.view = u.view ∧ t.pc = u.pc ∧ t.cycles = u.cycles) ∧
    (s.runState = .paused → (nextCommand s = some .pause ∨ nextCommand s = none) → step s = .next (scriptTaken s)) ∧
    (s.runState = .running → nextCommand s = some .pause →
      step s = .next { scriptTaken s with pauseRequested := true })

/-- CallerMisuse: a command that needs Paused, issued otherwise, answers code 32; a removal of an id not in the set answers
33; neither changes the state (R377, R378, R432). -/
def Obligations.MisusedCommandsChangeNothing : Prop :=
  ∀ (s : State) (c : Command), nextCommand s = some c →
    (s.runState ≠ .paused → c ≠ .pause → (∀ a condition, c ≠ .addBreakpoint a condition) →
      (∀ id, c ≠ .removeBreakpoint id) → step s = .next (scriptTaken s) ∧ respond c s = .misuse 32) ∧
    (∀ id, c = .removeBreakpoint id → (∀ b ∈ s.breakpoints, b.id ≠ id) →
      step s = .next (scriptTaken s) ∧ respond c s = .misuse 33)

/-- The overrides, while Paused: `set_registers` sets A, X, Y, S, PC and the six flags and keeps everything else, so that
an interrupt already polled is still next; `write` is the Bus's write without bus_latch (and, the model's reading of log 14,
without a fault record at an out-of-range address). Breakpoints, in any Run State: an added one comes last, enabled, with an
id not below the next fresh one, which only rises, so it was never used before; a removed one is gone and the others keep
their order; neither command changes anything else (R82, R409, R410, R411). -/
def Obligations.OverridesAndBreakpointCommands : Prop :=
  ∀ s : State, s.Inv →
    (∀ r, s.runState = .paused → nextCommand s = some (.setRegisters r) →
      ∃ t, step s = .next t ∧ t.pc = r.pc ∧
        t.view = { s.view with a := r.a, x := r.x, y := r.y, sp := r.s }.loadP r.p ∧
        t = { scriptTaken s with
          a := t.a, x := t.x, y := t.y, sp := t.sp, pc := t.pc
          fN := t.fN, fV := t.fV, fD := t.fD, fI := t.fI, fZ := t.fZ, fC := t.fC }) ∧
    (∀ a v, s.runState = .paused → nextCommand s = some (.write a v) →
      ∃ t, step s = .next t ∧ t.view = { s.view with cells := s.afterStore a v s.stored } ∧
        t = { scriptTaken s with mem := t.mem, portLog := writeEvents (target s a) v ++ s.portLog }) ∧
    (∀ a condition, nextCommand s = some (.addBreakpoint a condition) →
      ∃ id, respond (.addBreakpoint a condition) s = .breakpointId id ∧ (∀ b ∈ s.breakpoints, b.id ≠ id) ∧
        s.nextBreakpointId ≤ id ∧
        ∃ t, step s = .next t ∧ id < t.nextBreakpointId ∧
          t = { scriptTaken s with
            breakpoints := s.breakpoints ++ [⟨id, a, true, condition⟩], nextBreakpointId := t.nextBreakpointId }) ∧
    (∀ t, step s = .next t → s.nextBreakpointId ≤ t.nextBreakpointId) ∧
    (∀ id, nextCommand s = some (.removeBreakpoint id) → (∃ b ∈ s.breakpoints, b.id = id) →
      ∃ t, step s = .next t ∧ (∀ b, b ∈ t.breakpoints ↔ b ∈ s.breakpoints ∧ b.id ≠ id) ∧
        t.breakpoints.Sublist s.breakpoints ∧ t = { scriptTaken s with breakpoints := t.breakpoints })

/-- Inspection, while Paused: the snapshot of the registers with P's bit 5 as 1 and bit 4 as 0, the bytes of the window
with addresses wrapping at $FFFF, and the Disassembler's result at PC; it changes nothing, so a second inspection answers
the same (R28, R43, R83, R408). -/
def Obligations.InspectionReadsAndChangesNothing : Prop :=
  ∀ (s : State) (start : Addr) (length : Nat), s.runState = .paused → nextCommand s = some (.inspect start length) →
    step s = .next (scriptTaken s) ∧
    ∃ value, respond (.inspect start length) s = .inspection value ∧
      respond (.inspect start length) (scriptTaken s) = .inspection value ∧
      value.registers = ⟨s.a, s.x, s.y, s.sp, s.pc, BitVec.ofNat 8 (s.view.pNat false)⟩ ∧
      value.memory.length = length ∧
      (∀ k v, k < length → s.stored (start + BitVec.ofNat 16 k) = some v → value.memory[k]? = some v) ∧
      value.decoded = disassemble (fun a => peek a s) s.pc ∧ value.runState = s.runState ∧
      value.stopReason = s.stopReason ∧ value.fault = s.fault ∧ value.halted = s.halted ∧
      value.nmiPending = s.nmiPending ∧ value.intNext = s.intNext
end

