-- ==== Sys2Proof/Laws/Bits.lean ====
section
/-! SUPPORT. Halves and sums of addresses: what `lo`, `hi` and `join` are as numbers, and the indexed sum with its carry. -/

namespace Sys2Proof

theorem join_toNat (h l : Byte) : (join h l).toNat = 256 * h.toNat + l.toNat := by
  unfold join
  rw [BitVec.toNat_append, Nat.shiftLeft_eq, Nat.mul_comm, ← Nat.two_pow_add_eq_or_of_lt l.isLt]

theorem lo_toNat (a : Addr) : (lo a).toNat = a.toNat % 256 := by
  unfold lo; rw [BitVec.extractLsb'_toNat]; simp

theorem hi_toNat (a : Addr) : (hi a).toNat = a.toNat / 256 := by
  unfold hi; rw [BitVec.extractLsb'_toNat]; simp [Nat.shiftRight_eq_div_pow]; omega

@[simp] theorem lo_join (h l : Byte) : lo (join h l) = l := by
  apply BitVec.eq_of_toNat_eq; rw [lo_toNat, join_toNat]; have := l.isLt; omega

@[simp] theorem hi_join (h l : Byte) : hi (join h l) = h := by
  apply BitVec.eq_of_toNat_eq; rw [hi_toNat, join_toNat]; have := l.isLt; have := h.isLt; omega

@[simp] theorem join_hi_lo (a : Addr) : join (hi a) (lo a) = a := by
  apply BitVec.eq_of_toNat_eq; rw [join_toNat, hi_toNat, lo_toNat]; omega

/-- The indexed sum (R93): the low bytes added, and the high byte corrected where they carry (R135, R141). -/
theorem join_add (h l i : Byte) : join h l + i.setWidth 16 = if carries l i then join h (l + i) + 0x0100 else join h (l + i) := by
  apply BitVec.eq_of_toNat_eq
  unfold carries
  have := l.isLt; have := h.isLt; have := i.isLt
  have h256 : (0x0100 : Addr).toNat = 256 := rfl
  split <;> rename_i hc <;> simp only [decide_eq_true_eq] at hc <;>
    simp only [BitVec.toNat_add, join_toNat, BitVec.toNat_setWidth, h256] <;> omega
end Sys2Proof
end

