-- ==== Sys2Proof/Laws/Memory.lean ====
section
/-! SUPPORT. The laws of memory: a read after a write, and the canonical form, which every write keeps. -/

namespace Sys2Proof.Machine.Memory

/-- Below the bound of a canonical memory nothing is listed. -/
theorem read_below {m : List Host.Cell} {b k : Nat} (h : wfFrom b m = true) (hk : k < b) : read m k = unlisted := by
  induction m generalizing b with
  | nil => rfl
  | cons c m ih =>
    obtain ⟨i, w⟩ := c
    simp only [wfFrom, Bool.and_eq_true, decide_eq_true_eq] at h
    have hne : i ≠ k := by omega
    simpa [read, hne] using ih h.2 (by omega)

/-- The canonical form from a bound holds from every lower bound. -/
theorem wfFrom_mono {m : List Host.Cell} {b c : Nat} (h : wfFrom b m = true) (hc : c ≤ b) : wfFrom c m = true := by
  cases m with
  | nil => rfl
  | cons d m =>
    obtain ⟨i, w⟩ := d
    simp only [wfFrom, Bool.and_eq_true, decide_eq_true_eq] at h ⊢
    exact ⟨⟨by omega, h.1.2⟩, h.2⟩

/-- A read of the cell written gives the byte written. -/
theorem read_write_same {m : List Host.Cell} {b : Nat} (h : wfFrom b m = true) (a : Nat) (v : Byte) :
    read (write m a v) a = v := by
  induction m generalizing b with
  | nil =>
    by_cases hv : v = unlisted <;> simp [write, read, hv]
  | cons c m ih =>
    obtain ⟨k, w⟩ := c
    simp only [wfFrom, Bool.and_eq_true, decide_eq_true_eq] at h
    by_cases hlt : a < k
    · have hne : k ≠ a := by omega
      by_cases hv : v = unlisted
      · simpa [write, hlt, hv, read, hne] using read_below h.2 (by omega)
      · simp [write, hlt, hv, read]
    · by_cases heq : a = k
      · subst heq
        by_cases hv : v = unlisted
        · simpa [write, hv] using read_below h.2 (by omega)
        · simp [write, hv, read]
      · have hne : k ≠ a := Ne.symm heq
        simpa [write, hlt, heq, read, hne] using ih h.2

/-- A write leaves every other cell's byte alone. -/
theorem read_write_other (m : List Host.Cell) {a k : Nat} (v : Byte) (hk : k ≠ a) :
    read (write m a v) k = read m k := by
  have hak : a ≠ k := Ne.symm hk
  induction m with
  | nil => by_cases hv : v = unlisted <;> simp [write, read, hv, hak]
  | cons c m ih =>
    obtain ⟨i, w⟩ := c
    by_cases hlt : a < i
    · by_cases hv : v = unlisted <;> simp [write, hlt, hv, read, hak]
    · by_cases heq : a = i
      · subst heq
        by_cases hv : v = unlisted <;> simp [write, hv, read, hak]
      · simp only [write, hlt, heq, if_false, read, ih]

/-- A write keeps the canonical form from every bound the cell reaches. -/
theorem wfFrom_write {m : List Host.Cell} {b a : Nat} (v : Byte) (h : wfFrom b m = true) (ha : b ≤ a) :
    wfFrom b (write m a v) = true := by
  induction m generalizing b with
  | nil => by_cases hv : v = unlisted <;> simp [write, wfFrom, hv, ha]
  | cons c m ih =>
    obtain ⟨k, w⟩ := c
    simp only [wfFrom, Bool.and_eq_true, decide_eq_true_eq] at h
    by_cases hlt : a < k
    · by_cases hv : v = unlisted
      · simp [write, hlt, hv, wfFrom, h.1.1, h.1.2, h.2]
      · simp [write, hlt, hv, wfFrom, ha, h.1.2, h.2, Nat.succ_le_of_lt hlt]
    · by_cases heq : a = k
      · subst heq
        by_cases hv : v = unlisted
        · simpa [write, hv] using wfFrom_mono h.2 (by omega)
        · simp [write, hv, wfFrom, ha, h.2]
      · simp only [write, hlt, heq, if_false, wfFrom, Bool.and_eq_true, decide_eq_true_eq]
        exact ⟨h.1, ih h.2 (by omega)⟩

/-- A write keeps the canonical form. -/
theorem wf_write {m : List Host.Cell} (a : Nat) (v : Byte) (h : wf m = true) : wf (write m a v) = true :=
  wfFrom_write v h (Nat.zero_le a)

/-- A write lists no cell but the one written and those listed before. -/
theorem mem_write {m : List Host.Cell} {a : Nat} {v : Byte} {c : Host.Cell} (h : c ∈ write m a v) :
    c ∈ m ∨ c.1 = a := by
  induction m with
  | nil =>
    by_cases hv : v = unlisted
    · simp [write, hv] at h
    · simp only [write, hv, if_false, List.mem_singleton] at h
      simp [h]
  | cons d m ih =>
    obtain ⟨k, w⟩ := d
    simp only [write] at h
    split at h
    · split at h
      · exact .inl h
      · rcases List.mem_cons.mp h with rfl | h
        · exact .inr rfl
        · exact .inl h
    · split at h
      · split at h
        · exact .inl (List.mem_cons_of_mem _ h)
        · rcases List.mem_cons.mp h with rfl | h
          · exact .inr rfl
          · exact .inl (List.mem_cons_of_mem _ h)
      · rcases List.mem_cons.mp h with rfl | h
        · exact .inl (List.mem_cons_self ..)
        · exact (ih h).imp (List.mem_cons_of_mem _) id

end Sys2Proof.Machine.Memory

namespace Sys2Proof.Machine

/-- A bus write keeps the canonical form. -/
theorem memAfterWrite_wf (t : Target) (v : Byte) {m : List Host.Cell} (h : Memory.wf m = true) :
    Memory.wf (memAfterWrite t v m) = true := by
  unfold memAfterWrite
  split
  · exact Memory.wf_write _ _ h
  all_goals exact h

/-- A bus write leaves every other cell's byte alone. -/
theorem read_memAfterWrite_other (t : Target) (v : Byte) (m : List Host.Cell) {k : Nat} (hk : k ≠ t.cell) :
    Memory.read (memAfterWrite t v m) k = Memory.read m k := by
  unfold memAfterWrite
  split
  · exact Memory.read_write_other m v hk
  all_goals rfl

/-- A bus write changes nothing but RAM. -/
theorem memAfterWrite_notRam (t : Target) (v : Byte) (m : List Host.Cell) (h : t.kind ≠ .ram) :
    memAfterWrite t v m = m := by
  unfold memAfterWrite
  split
  · exact absurd ‹_› h
  all_goals rfl

/-- A bus write to a RAM cell stores the byte. -/
theorem read_memAfterWrite_ram {t : Target} (v : Byte) {m : List Host.Cell} (hw : Memory.wf m = true)
    (h : t.kind = .ram) : Memory.read (memAfterWrite t v m) t.cell = v := by
  simpa [memAfterWrite, h] using Memory.read_write_same hw t.cell v

/-- An address resolves to a cell no higher than itself, so every cell lies in the 64K space (R61, R65). -/
theorem resolve_cell_le (map : List Region) (a : Addr) : (resolve map a).cell ≤ a.toNat := by
  unfold resolve
  split
  · next r h =>
    have hr := List.find?_some h
    simp only [Region.holds, Bool.and_eq_true, decide_eq_true_eq] at hr
    have := Nat.mod_le (a.toNat - r.first) r.period
    simp only
    omega
  · exact Nat.le_refl _

end Sys2Proof.Machine
end

