-- ==== Sys2Proof/Laws/State.lean ====
section
/-! SUPPORT. One lemma for each field of State and each named update: what the update leaves in the field. All are true
by rfl and are simp lemmas, so that no proof unfolds a record update. -/

namespace Sys2Proof.Machine

variable (s : State)

/-! ### setNZ -/

@[simp] theorem setNZ_a (r : Byte) : (setNZ r s).a = s.a := rfl
@[simp] theorem setNZ_x (r : Byte) : (setNZ r s).x = s.x := rfl
@[simp] theorem setNZ_y (r : Byte) : (setNZ r s).y = s.y := rfl
@[simp] theorem setNZ_sp (r : Byte) : (setNZ r s).sp = s.sp := rfl
@[simp] theorem setNZ_pc (r : Byte) : (setNZ r s).pc = s.pc := rfl
@[simp] theorem setNZ_fN (r : Byte) : (setNZ r s).fN = r.msb := rfl
@[simp] theorem setNZ_fV (r : Byte) : (setNZ r s).fV = s.fV := rfl
@[simp] theorem setNZ_fD (r : Byte) : (setNZ r s).fD = s.fD := rfl
@[simp] theorem setNZ_fI (r : Byte) : (setNZ r s).fI = s.fI := rfl
@[simp] theorem setNZ_fZ (r : Byte) : (setNZ r s).fZ = isZero r := rfl
@[simp] theorem setNZ_fC (r : Byte) : (setNZ r s).fC = s.fC := rfl
@[simp] theorem setNZ_seq (r : Byte) : (setNZ r s).seq = s.seq := rfl
@[simp] theorem setNZ_ir (r : Byte) : (setNZ r s).ir = s.ir := rfl
@[simp] theorem setNZ_t (r : Byte) : (setNZ r s).t = s.t := rfl
@[simp] theorem setNZ_ad (r : Byte) : (setNZ r s).ad = s.ad := rfl
@[simp] theorem setNZ_dl (r : Byte) : (setNZ r s).dl = s.dl := rfl
@[simp] theorem setNZ_crossed (r : Byte) : (setNZ r s).crossed = s.crossed := rfl
@[simp] theorem setNZ_vec (r : Byte) : (setNZ r s).vec = s.vec := rfl
@[simp] theorem setNZ_bflag (r : Byte) : (setNZ r s).bflag = s.bflag := rfl
@[simp] theorem setNZ_queue (r : Byte) : (setNZ r s).queue = s.queue := rfl
@[simp] theorem setNZ_nmiPrev (r : Byte) : (setNZ r s).nmiPrev = s.nmiPrev := rfl
@[simp] theorem setNZ_nmiPending (r : Byte) : (setNZ r s).nmiPending = s.nmiPending := rfl
@[simp] theorem setNZ_irqSampled (r : Byte) : (setNZ r s).irqSampled = s.irqSampled := rfl
@[simp] theorem setNZ_intNext (r : Byte) : (setNZ r s).intNext = s.intNext := rfl
@[simp] theorem setNZ_busLatch (r : Byte) : (setNZ r s).busLatch = s.busLatch := rfl
@[simp] theorem setNZ_halted (r : Byte) : (setNZ r s).halted = s.halted := rfl
@[simp] theorem setNZ_fault (r : Byte) : (setNZ r s).fault = s.fault := rfl
@[simp] theorem setNZ_runState (r : Byte) : (setNZ r s).runState = s.runState := rfl
@[simp] theorem setNZ_breakpoints (r : Byte) : (setNZ r s).breakpoints = s.breakpoints := rfl
@[simp] theorem setNZ_nextBreakpointId (r : Byte) : (setNZ r s).nextBreakpointId = s.nextBreakpointId := rfl
@[simp] theorem setNZ_pauseRequested (r : Byte) : (setNZ r s).pauseRequested = s.pauseRequested := rfl
@[simp] theorem setNZ_frameSeen (r : Byte) : (setNZ r s).frameSeen = s.frameSeen := rfl
@[simp] theorem setNZ_stopReason (r : Byte) : (setNZ r s).stopReason = s.stopReason := rfl
@[simp] theorem setNZ_ppuAcc (r : Byte) : (setNZ r s).ppuAcc = s.ppuAcc := rfl
@[simp] theorem setNZ_cycles (r : Byte) : (setNZ r s).cycles = s.cycles := rfl
@[simp] theorem setNZ_ppuSteps (r : Byte) : (setNZ r s).ppuSteps = s.ppuSteps := rfl
@[simp] theorem setNZ_ppuLine (r : Byte) : (setNZ r s).ppuLine = s.ppuLine := rfl
@[simp] theorem setNZ_irqAsserting (r : Byte) : (setNZ r s).irqAsserting = s.irqAsserting := rfl
@[simp] theorem setNZ_mem (r : Byte) : (setNZ r s).mem = s.mem := rfl
@[simp] theorem setNZ_profile (r : Byte) : (setNZ r s).profile = s.profile := rfl
@[simp] theorem setNZ_inputs (r : Byte) : (setNZ r s).inputs = s.inputs := rfl
@[simp] theorem setNZ_commands (r : Byte) : (setNZ r s).commands = s.commands := rfl
@[simp] theorem setNZ_portLog (r : Byte) : (setNZ r s).portLog = s.portLog := rfl
@[simp] theorem setNZ_freeIdx (r : Byte) : (setNZ r s).freeIdx = s.freeIdx := rfl

/-! ### setShift -/

@[simp] theorem setShift_a (r : Byte) (out : Bool) : (setShift r out s).a = s.a := rfl
@[simp] theorem setShift_x (r : Byte) (out : Bool) : (setShift r out s).x = s.x := rfl
@[simp] theorem setShift_y (r : Byte) (out : Bool) : (setShift r out s).y = s.y := rfl
@[simp] theorem setShift_sp (r : Byte) (out : Bool) : (setShift r out s).sp = s.sp := rfl
@[simp] theorem setShift_pc (r : Byte) (out : Bool) : (setShift r out s).pc = s.pc := rfl
@[simp] theorem setShift_fN (r : Byte) (out : Bool) : (setShift r out s).fN = r.msb := rfl
@[simp] theorem setShift_fV (r : Byte) (out : Bool) : (setShift r out s).fV = s.fV := rfl
@[simp] theorem setShift_fD (r : Byte) (out : Bool) : (setShift r out s).fD = s.fD := rfl
@[simp] theorem setShift_fI (r : Byte) (out : Bool) : (setShift r out s).fI = s.fI := rfl
@[simp] theorem setShift_fZ (r : Byte) (out : Bool) : (setShift r out s).fZ = isZero r := rfl
@[simp] theorem setShift_fC (r : Byte) (out : Bool) : (setShift r out s).fC = out := rfl
@[simp] theorem setShift_seq (r : Byte) (out : Bool) : (setShift r out s).seq = s.seq := rfl
@[simp] theorem setShift_ir (r : Byte) (out : Bool) : (setShift r out s).ir = s.ir := rfl
@[simp] theorem setShift_t (r : Byte) (out : Bool) : (setShift r out s).t = s.t := rfl
@[simp] theorem setShift_ad (r : Byte) (out : Bool) : (setShift r out s).ad = s.ad := rfl
@[simp] theorem setShift_dl (r : Byte) (out : Bool) : (setShift r out s).dl = s.dl := rfl
@[simp] theorem setShift_crossed (r : Byte) (out : Bool) : (setShift r out s).crossed = s.crossed := rfl
@[simp] theorem setShift_vec (r : Byte) (out : Bool) : (setShift r out s).vec = s.vec := rfl
@[simp] theorem setShift_bflag (r : Byte) (out : Bool) : (setShift r out s).bflag = s.bflag := rfl
@[simp] theorem setShift_queue (r : Byte) (out : Bool) : (setShift r out s).queue = s.queue := rfl
@[simp] theorem setShift_nmiPrev (r : Byte) (out : Bool) : (setShift r out s).nmiPrev = s.nmiPrev := rfl
@[simp] theorem setShift_nmiPending (r : Byte) (out : Bool) : (setShift r out s).nmiPending = s.nmiPending := rfl
@[simp] theorem setShift_irqSampled (r : Byte) (out : Bool) : (setShift r out s).irqSampled = s.irqSampled := rfl
@[simp] theorem setShift_intNext (r : Byte) (out : Bool) : (setShift r out s).intNext = s.intNext := rfl
@[simp] theorem setShift_busLatch (r : Byte) (out : Bool) : (setShift r out s).busLatch = s.busLatch := rfl
@[simp] theorem setShift_halted (r : Byte) (out : Bool) : (setShift r out s).halted = s.halted := rfl
@[simp] theorem setShift_fault (r : Byte) (out : Bool) : (setShift r out s).fault = s.fault := rfl
@[simp] theorem setShift_runState (r : Byte) (out : Bool) : (setShift r out s).runState = s.runState := rfl
@[simp] theorem setShift_breakpoints (r : Byte) (out : Bool) : (setShift r out s).breakpoints = s.breakpoints := rfl
@[simp] theorem setShift_nextBreakpointId (r : Byte) (out : Bool) : (setShift r out s).nextBreakpointId = s.nextBreakpointId := rfl
@[simp] theorem setShift_pauseRequested (r : Byte) (out : Bool) : (setShift r out s).pauseRequested = s.pauseRequested := rfl
@[simp] theorem setShift_frameSeen (r : Byte) (out : Bool) : (setShift r out s).frameSeen = s.frameSeen := rfl
@[simp] theorem setShift_stopReason (r : Byte) (out : Bool) : (setShift r out s).stopReason = s.stopReason := rfl
@[simp] theorem setShift_ppuAcc (r : Byte) (out : Bool) : (setShift r out s).ppuAcc = s.ppuAcc := rfl
@[simp] theorem setShift_cycles (r : Byte) (out : Bool) : (setShift r out s).cycles = s.cycles := rfl
@[simp] theorem setShift_ppuSteps (r : Byte) (out : Bool) : (setShift r out s).ppuSteps = s.ppuSteps := rfl
@[simp] theorem setShift_ppuLine (r : Byte) (out : Bool) : (setShift r out s).ppuLine = s.ppuLine := rfl
@[simp] theorem setShift_irqAsserting (r : Byte) (out : Bool) : (setShift r out s).irqAsserting = s.irqAsserting := rfl
@[simp] theorem setShift_mem (r : Byte) (out : Bool) : (setShift r out s).mem = s.mem := rfl
@[simp] theorem setShift_profile (r : Byte) (out : Bool) : (setShift r out s).profile = s.profile := rfl
@[simp] theorem setShift_inputs (r : Byte) (out : Bool) : (setShift r out s).inputs = s.inputs := rfl
@[simp] theorem setShift_commands (r : Byte) (out : Bool) : (setShift r out s).commands = s.commands := rfl
@[simp] theorem setShift_portLog (r : Byte) (out : Bool) : (setShift r out s).portLog = s.portLog := rfl
@[simp] theorem setShift_freeIdx (r : Byte) (out : Bool) : (setShift r out s).freeIdx = s.freeIdx := rfl

/-! ### loadP -/

@[simp] theorem loadP_a (v : Byte) : (loadP v s).a = s.a := rfl
@[simp] theorem loadP_x (v : Byte) : (loadP v s).x = s.x := rfl
@[simp] theorem loadP_y (v : Byte) : (loadP v s).y = s.y := rfl
@[simp] theorem loadP_sp (v : Byte) : (loadP v s).sp = s.sp := rfl
@[simp] theorem loadP_pc (v : Byte) : (loadP v s).pc = s.pc := rfl
@[simp] theorem loadP_fN (v : Byte) : (loadP v s).fN = v.getLsbD 7 := rfl
@[simp] theorem loadP_fV (v : Byte) : (loadP v s).fV = v.getLsbD 6 := rfl
@[simp] theorem loadP_fD (v : Byte) : (loadP v s).fD = v.getLsbD 3 := rfl
@[simp] theorem loadP_fI (v : Byte) : (loadP v s).fI = v.getLsbD 2 := rfl
@[simp] theorem loadP_fZ (v : Byte) : (loadP v s).fZ = v.getLsbD 1 := rfl
@[simp] theorem loadP_fC (v : Byte) : (loadP v s).fC = v.getLsbD 0 := rfl
@[simp] theorem loadP_seq (v : Byte) : (loadP v s).seq = s.seq := rfl
@[simp] theorem loadP_ir (v : Byte) : (loadP v s).ir = s.ir := rfl
@[simp] theorem loadP_t (v : Byte) : (loadP v s).t = s.t := rfl
@[simp] theorem loadP_ad (v : Byte) : (loadP v s).ad = s.ad := rfl
@[simp] theorem loadP_dl (v : Byte) : (loadP v s).dl = s.dl := rfl
@[simp] theorem loadP_crossed (v : Byte) : (loadP v s).crossed = s.crossed := rfl
@[simp] theorem loadP_vec (v : Byte) : (loadP v s).vec = s.vec := rfl
@[simp] theorem loadP_bflag (v : Byte) : (loadP v s).bflag = s.bflag := rfl
@[simp] theorem loadP_queue (v : Byte) : (loadP v s).queue = s.queue := rfl
@[simp] theorem loadP_nmiPrev (v : Byte) : (loadP v s).nmiPrev = s.nmiPrev := rfl
@[simp] theorem loadP_nmiPending (v : Byte) : (loadP v s).nmiPending = s.nmiPending := rfl
@[simp] theorem loadP_irqSampled (v : Byte) : (loadP v s).irqSampled = s.irqSampled := rfl
@[simp] theorem loadP_intNext (v : Byte) : (loadP v s).intNext = s.intNext := rfl
@[simp] theorem loadP_busLatch (v : Byte) : (loadP v s).busLatch = s.busLatch := rfl
@[simp] theorem loadP_halted (v : Byte) : (loadP v s).halted = s.halted := rfl
@[simp] theorem loadP_fault (v : Byte) : (loadP v s).fault = s.fault := rfl
@[simp] theorem loadP_runState (v : Byte) : (loadP v s).runState = s.runState := rfl
@[simp] theorem loadP_breakpoints (v : Byte) : (loadP v s).breakpoints = s.breakpoints := rfl
@[simp] theorem loadP_nextBreakpointId (v : Byte) : (loadP v s).nextBreakpointId = s.nextBreakpointId := rfl
@[simp] theorem loadP_pauseRequested (v : Byte) : (loadP v s).pauseRequested = s.pauseRequested := rfl
@[simp] theorem loadP_frameSeen (v : Byte) : (loadP v s).frameSeen = s.frameSeen := rfl
@[simp] theorem loadP_stopReason (v : Byte) : (loadP v s).stopReason = s.stopReason := rfl
@[simp] theorem loadP_ppuAcc (v : Byte) : (loadP v s).ppuAcc = s.ppuAcc := rfl
@[simp] theorem loadP_cycles (v : Byte) : (loadP v s).cycles = s.cycles := rfl
@[simp] theorem loadP_ppuSteps (v : Byte) : (loadP v s).ppuSteps = s.ppuSteps := rfl
@[simp] theorem loadP_ppuLine (v : Byte) : (loadP v s).ppuLine = s.ppuLine := rfl
@[simp] theorem loadP_irqAsserting (v : Byte) : (loadP v s).irqAsserting = s.irqAsserting := rfl
@[simp] theorem loadP_mem (v : Byte) : (loadP v s).mem = s.mem := rfl
@[simp] theorem loadP_profile (v : Byte) : (loadP v s).profile = s.profile := rfl
@[simp] theorem loadP_inputs (v : Byte) : (loadP v s).inputs = s.inputs := rfl
@[simp] theorem loadP_commands (v : Byte) : (loadP v s).commands = s.commands := rfl
@[simp] theorem loadP_portLog (v : Byte) : (loadP v s).portLog = s.portLog := rfl
@[simp] theorem loadP_freeIdx (v : Byte) : (loadP v s).freeIdx = s.freeIdx := rfl

/-! ### adcIntoA -/

@[simp] theorem adcIntoA_a (m : Byte) : (adcIntoA m s).a = adcResult s.a m s.fC := rfl
@[simp] theorem adcIntoA_x (m : Byte) : (adcIntoA m s).x = s.x := rfl
@[simp] theorem adcIntoA_y (m : Byte) : (adcIntoA m s).y = s.y := rfl
@[simp] theorem adcIntoA_sp (m : Byte) : (adcIntoA m s).sp = s.sp := rfl
@[simp] theorem adcIntoA_pc (m : Byte) : (adcIntoA m s).pc = s.pc := rfl
@[simp] theorem adcIntoA_fN (m : Byte) : (adcIntoA m s).fN = (adcResult s.a m s.fC).msb := rfl
@[simp] theorem adcIntoA_fV (m : Byte) : (adcIntoA m s).fV = adcOverflow s.a m s.fC := rfl
@[simp] theorem adcIntoA_fD (m : Byte) : (adcIntoA m s).fD = s.fD := rfl
@[simp] theorem adcIntoA_fI (m : Byte) : (adcIntoA m s).fI = s.fI := rfl
@[simp] theorem adcIntoA_fZ (m : Byte) : (adcIntoA m s).fZ = isZero (adcResult s.a m s.fC) := rfl
@[simp] theorem adcIntoA_fC (m : Byte) : (adcIntoA m s).fC = adcCarry s.a m s.fC := rfl
@[simp] theorem adcIntoA_seq (m : Byte) : (adcIntoA m s).seq = s.seq := rfl
@[simp] theorem adcIntoA_ir (m : Byte) : (adcIntoA m s).ir = s.ir := rfl
@[simp] theorem adcIntoA_t (m : Byte) : (adcIntoA m s).t = s.t := rfl
@[simp] theorem adcIntoA_ad (m : Byte) : (adcIntoA m s).ad = s.ad := rfl
@[simp] theorem adcIntoA_dl (m : Byte) : (adcIntoA m s).dl = s.dl := rfl
@[simp] theorem adcIntoA_crossed (m : Byte) : (adcIntoA m s).crossed = s.crossed := rfl
@[simp] theorem adcIntoA_vec (m : Byte) : (adcIntoA m s).vec = s.vec := rfl
@[simp] theorem adcIntoA_bflag (m : Byte) : (adcIntoA m s).bflag = s.bflag := rfl
@[simp] theorem adcIntoA_queue (m : Byte) : (adcIntoA m s).queue = s.queue := rfl
@[simp] theorem adcIntoA_nmiPrev (m : Byte) : (adcIntoA m s).nmiPrev = s.nmiPrev := rfl
@[simp] theorem adcIntoA_nmiPending (m : Byte) : (adcIntoA m s).nmiPending = s.nmiPending := rfl
@[simp] theorem adcIntoA_irqSampled (m : Byte) : (adcIntoA m s).irqSampled = s.irqSampled := rfl
@[simp] theorem adcIntoA_intNext (m : Byte) : (adcIntoA m s).intNext = s.intNext := rfl
@[simp] theorem adcIntoA_busLatch (m : Byte) : (adcIntoA m s).busLatch = s.busLatch := rfl
@[simp] theorem adcIntoA_halted (m : Byte) : (adcIntoA m s).halted = s.halted := rfl
@[simp] theorem adcIntoA_fault (m : Byte) : (adcIntoA m s).fault = s.fault := rfl
@[simp] theorem adcIntoA_runState (m : Byte) : (adcIntoA m s).runState = s.runState := rfl
@[simp] theorem adcIntoA_breakpoints (m : Byte) : (adcIntoA m s).breakpoints = s.breakpoints := rfl
@[simp] theorem adcIntoA_nextBreakpointId (m : Byte) : (adcIntoA m s).nextBreakpointId = s.nextBreakpointId := rfl
@[simp] theorem adcIntoA_pauseRequested (m : Byte) : (adcIntoA m s).pauseRequested = s.pauseRequested := rfl
@[simp] theorem adcIntoA_frameSeen (m : Byte) : (adcIntoA m s).frameSeen = s.frameSeen := rfl
@[simp] theorem adcIntoA_stopReason (m : Byte) : (adcIntoA m s).stopReason = s.stopReason := rfl
@[simp] theorem adcIntoA_ppuAcc (m : Byte) : (adcIntoA m s).ppuAcc = s.ppuAcc := rfl
@[simp] theorem adcIntoA_cycles (m : Byte) : (adcIntoA m s).cycles = s.cycles := rfl
@[simp] theorem adcIntoA_ppuSteps (m : Byte) : (adcIntoA m s).ppuSteps = s.ppuSteps := rfl
@[simp] theorem adcIntoA_ppuLine (m : Byte) : (adcIntoA m s).ppuLine = s.ppuLine := rfl
@[simp] theorem adcIntoA_irqAsserting (m : Byte) : (adcIntoA m s).irqAsserting = s.irqAsserting := rfl
@[simp] theorem adcIntoA_mem (m : Byte) : (adcIntoA m s).mem = s.mem := rfl
@[simp] theorem adcIntoA_profile (m : Byte) : (adcIntoA m s).profile = s.profile := rfl
@[simp] theorem adcIntoA_inputs (m : Byte) : (adcIntoA m s).inputs = s.inputs := rfl
@[simp] theorem adcIntoA_commands (m : Byte) : (adcIntoA m s).commands = s.commands := rfl
@[simp] theorem adcIntoA_portLog (m : Byte) : (adcIntoA m s).portLog = s.portLog := rfl
@[simp] theorem adcIntoA_freeIdx (m : Byte) : (adcIntoA m s).freeIdx = s.freeIdx := rfl

/-! ### compare -/

@[simp] theorem compare_a (r m : Byte) : (compare r m s).a = s.a := rfl
@[simp] theorem compare_x (r m : Byte) : (compare r m s).x = s.x := rfl
@[simp] theorem compare_y (r m : Byte) : (compare r m s).y = s.y := rfl
@[simp] theorem compare_sp (r m : Byte) : (compare r m s).sp = s.sp := rfl
@[simp] theorem compare_pc (r m : Byte) : (compare r m s).pc = s.pc := rfl
@[simp] theorem compare_fN (r m : Byte) : (compare r m s).fN = (r - m).msb := rfl
@[simp] theorem compare_fV (r m : Byte) : (compare r m s).fV = s.fV := rfl
@[simp] theorem compare_fD (r m : Byte) : (compare r m s).fD = s.fD := rfl
@[simp] theorem compare_fI (r m : Byte) : (compare r m s).fI = s.fI := rfl
@[simp] theorem compare_fZ (r m : Byte) : (compare r m s).fZ = decide (r = m) := rfl
@[simp] theorem compare_fC (r m : Byte) : (compare r m s).fC = decide (m.toNat ≤ r.toNat) := rfl
@[simp] theorem compare_seq (r m : Byte) : (compare r m s).seq = s.seq := rfl
@[simp] theorem compare_ir (r m : Byte) : (compare r m s).ir = s.ir := rfl
@[simp] theorem compare_t (r m : Byte) : (compare r m s).t = s.t := rfl
@[simp] theorem compare_ad (r m : Byte) : (compare r m s).ad = s.ad := rfl
@[simp] theorem compare_dl (r m : Byte) : (compare r m s).dl = s.dl := rfl
@[simp] theorem compare_crossed (r m : Byte) : (compare r m s).crossed = s.crossed := rfl
@[simp] theorem compare_vec (r m : Byte) : (compare r m s).vec = s.vec := rfl
@[simp] theorem compare_bflag (r m : Byte) : (compare r m s).bflag = s.bflag := rfl
@[simp] theorem compare_queue (r m : Byte) : (compare r m s).queue = s.queue := rfl
@[simp] theorem compare_nmiPrev (r m : Byte) : (compare r m s).nmiPrev = s.nmiPrev := rfl
@[simp] theorem compare_nmiPending (r m : Byte) : (compare r m s).nmiPending = s.nmiPending := rfl
@[simp] theorem compare_irqSampled (r m : Byte) : (compare r m s).irqSampled = s.irqSampled := rfl
@[simp] theorem compare_intNext (r m : Byte) : (compare r m s).intNext = s.intNext := rfl
@[simp] theorem compare_busLatch (r m : Byte) : (compare r m s).busLatch = s.busLatch := rfl
@[simp] theorem compare_halted (r m : Byte) : (compare r m s).halted = s.halted := rfl
@[simp] theorem compare_fault (r m : Byte) : (compare r m s).fault = s.fault := rfl
@[simp] theorem compare_runState (r m : Byte) : (compare r m s).runState = s.runState := rfl
@[simp] theorem compare_breakpoints (r m : Byte) : (compare r m s).breakpoints = s.breakpoints := rfl
@[simp] theorem compare_nextBreakpointId (r m : Byte) : (compare r m s).nextBreakpointId = s.nextBreakpointId := rfl
@[simp] theorem compare_pauseRequested (r m : Byte) : (compare r m s).pauseRequested = s.pauseRequested := rfl
@[simp] theorem compare_frameSeen (r m : Byte) : (compare r m s).frameSeen = s.frameSeen := rfl
@[simp] theorem compare_stopReason (r m : Byte) : (compare r m s).stopReason = s.stopReason := rfl
@[simp] theorem compare_ppuAcc (r m : Byte) : (compare r m s).ppuAcc = s.ppuAcc := rfl
@[simp] theorem compare_cycles (r m : Byte) : (compare r m s).cycles = s.cycles := rfl
@[simp] theorem compare_ppuSteps (r m : Byte) : (compare r m s).ppuSteps = s.ppuSteps := rfl
@[simp] theorem compare_ppuLine (r m : Byte) : (compare r m s).ppuLine = s.ppuLine := rfl
@[simp] theorem compare_irqAsserting (r m : Byte) : (compare r m s).irqAsserting = s.irqAsserting := rfl
@[simp] theorem compare_mem (r m : Byte) : (compare r m s).mem = s.mem := rfl
@[simp] theorem compare_profile (r m : Byte) : (compare r m s).profile = s.profile := rfl
@[simp] theorem compare_inputs (r m : Byte) : (compare r m s).inputs = s.inputs := rfl
@[simp] theorem compare_commands (r m : Byte) : (compare r m s).commands = s.commands := rfl
@[simp] theorem compare_portLog (r m : Byte) : (compare r m s).portLog = s.portLog := rfl
@[simp] theorem compare_freeIdx (r m : Byte) : (compare r m s).freeIdx = s.freeIdx := rfl

/-! ### busRead -/

@[simp] theorem busRead_a (p : Addr) (v : Byte) : (busRead p v s).a = s.a := rfl
@[simp] theorem busRead_x (p : Addr) (v : Byte) : (busRead p v s).x = s.x := rfl
@[simp] theorem busRead_y (p : Addr) (v : Byte) : (busRead p v s).y = s.y := rfl
@[simp] theorem busRead_sp (p : Addr) (v : Byte) : (busRead p v s).sp = s.sp := rfl
@[simp] theorem busRead_pc (p : Addr) (v : Byte) : (busRead p v s).pc = s.pc := rfl
@[simp] theorem busRead_fN (p : Addr) (v : Byte) : (busRead p v s).fN = s.fN := rfl
@[simp] theorem busRead_fV (p : Addr) (v : Byte) : (busRead p v s).fV = s.fV := rfl
@[simp] theorem busRead_fD (p : Addr) (v : Byte) : (busRead p v s).fD = s.fD := rfl
@[simp] theorem busRead_fI (p : Addr) (v : Byte) : (busRead p v s).fI = s.fI := rfl
@[simp] theorem busRead_fZ (p : Addr) (v : Byte) : (busRead p v s).fZ = s.fZ := rfl
@[simp] theorem busRead_fC (p : Addr) (v : Byte) : (busRead p v s).fC = s.fC := rfl
@[simp] theorem busRead_seq (p : Addr) (v : Byte) : (busRead p v s).seq = s.seq := rfl
@[simp] theorem busRead_ir (p : Addr) (v : Byte) : (busRead p v s).ir = s.ir := rfl
@[simp] theorem busRead_t (p : Addr) (v : Byte) : (busRead p v s).t = s.t := rfl
@[simp] theorem busRead_ad (p : Addr) (v : Byte) : (busRead p v s).ad = s.ad := rfl
@[simp] theorem busRead_dl (p : Addr) (v : Byte) : (busRead p v s).dl = s.dl := rfl
@[simp] theorem busRead_crossed (p : Addr) (v : Byte) : (busRead p v s).crossed = s.crossed := rfl
@[simp] theorem busRead_vec (p : Addr) (v : Byte) : (busRead p v s).vec = s.vec := rfl
@[simp] theorem busRead_bflag (p : Addr) (v : Byte) : (busRead p v s).bflag = s.bflag := rfl
@[simp] theorem busRead_queue (p : Addr) (v : Byte) : (busRead p v s).queue = s.queue := rfl
@[simp] theorem busRead_nmiPrev (p : Addr) (v : Byte) : (busRead p v s).nmiPrev = s.nmiPrev := rfl
@[simp] theorem busRead_nmiPending (p : Addr) (v : Byte) : (busRead p v s).nmiPending = s.nmiPending := rfl
@[simp] theorem busRead_irqSampled (p : Addr) (v : Byte) : (busRead p v s).irqSampled = s.irqSampled := rfl
@[simp] theorem busRead_intNext (p : Addr) (v : Byte) : (busRead p v s).intNext = s.intNext := rfl
@[simp] theorem busRead_busLatch (p : Addr) (v : Byte) : (busRead p v s).busLatch = v := rfl
@[simp] theorem busRead_halted (p : Addr) (v : Byte) : (busRead p v s).halted = s.halted := rfl
@[simp] theorem busRead_fault (p : Addr) (v : Byte) : (busRead p v s).fault = faultAfter p s := rfl
@[simp] theorem busRead_runState (p : Addr) (v : Byte) : (busRead p v s).runState = s.runState := rfl
@[simp] theorem busRead_breakpoints (p : Addr) (v : Byte) : (busRead p v s).breakpoints = s.breakpoints := rfl
@[simp] theorem busRead_nextBreakpointId (p : Addr) (v : Byte) : (busRead p v s).nextBreakpointId = s.nextBreakpointId := rfl
@[simp] theorem busRead_pauseRequested (p : Addr) (v : Byte) : (busRead p v s).pauseRequested = s.pauseRequested := rfl
@[simp] theorem busRead_frameSeen (p : Addr) (v : Byte) : (busRead p v s).frameSeen = s.frameSeen := rfl
@[simp] theorem busRead_stopReason (p : Addr) (v : Byte) : (busRead p v s).stopReason = s.stopReason := rfl
@[simp] theorem busRead_ppuAcc (p : Addr) (v : Byte) : (busRead p v s).ppuAcc = s.ppuAcc := rfl
@[simp] theorem busRead_cycles (p : Addr) (v : Byte) : (busRead p v s).cycles = s.cycles := rfl
@[simp] theorem busRead_ppuSteps (p : Addr) (v : Byte) : (busRead p v s).ppuSteps = s.ppuSteps := rfl
@[simp] theorem busRead_ppuLine (p : Addr) (v : Byte) : (busRead p v s).ppuLine = s.ppuLine := rfl
@[simp] theorem busRead_irqAsserting (p : Addr) (v : Byte) : (busRead p v s).irqAsserting = s.irqAsserting := rfl
@[simp] theorem busRead_mem (p : Addr) (v : Byte) : (busRead p v s).mem = s.mem := rfl
@[simp] theorem busRead_profile (p : Addr) (v : Byte) : (busRead p v s).profile = s.profile := rfl
@[simp] theorem busRead_inputs (p : Addr) (v : Byte) : (busRead p v s).inputs = s.inputs := rfl
@[simp] theorem busRead_commands (p : Addr) (v : Byte) : (busRead p v s).commands = s.commands := rfl
@[simp] theorem busRead_portLog (p : Addr) (v : Byte) : (busRead p v s).portLog = readEvents (target s p) ++ s.portLog := rfl
@[simp] theorem busRead_freeIdx (p : Addr) (v : Byte) : (busRead p v s).freeIdx = s.freeIdx + freeUsed (target s p) := rfl

/-! ### busWrite -/

@[simp] theorem busWrite_a (p : Addr) (v : Byte) : (busWrite p v s).a = s.a := rfl
@[simp] theorem busWrite_x (p : Addr) (v : Byte) : (busWrite p v s).x = s.x := rfl
@[simp] theorem busWrite_y (p : Addr) (v : Byte) : (busWrite p v s).y = s.y := rfl
@[simp] theorem busWrite_sp (p : Addr) (v : Byte) : (busWrite p v s).sp = s.sp := rfl
@[simp] theorem busWrite_pc (p : Addr) (v : Byte) : (busWrite p v s).pc = s.pc := rfl
@[simp] theorem busWrite_fN (p : Addr) (v : Byte) : (busWrite p v s).fN = s.fN := rfl
@[simp] theorem busWrite_fV (p : Addr) (v : Byte) : (busWrite p v s).fV = s.fV := rfl
@[simp] theorem busWrite_fD (p : Addr) (v : Byte) : (busWrite p v s).fD = s.fD := rfl
@[simp] theorem busWrite_fI (p : Addr) (v : Byte) : (busWrite p v s).fI = s.fI := rfl
@[simp] theorem busWrite_fZ (p : Addr) (v : Byte) : (busWrite p v s).fZ = s.fZ := rfl
@[simp] theorem busWrite_fC (p : Addr) (v : Byte) : (busWrite p v s).fC = s.fC := rfl
@[simp] theorem busWrite_seq (p : Addr) (v : Byte) : (busWrite p v s).seq = s.seq := rfl
@[simp] theorem busWrite_ir (p : Addr) (v : Byte) : (busWrite p v s).ir = s.ir := rfl
@[simp] theorem busWrite_t (p : Addr) (v : Byte) : (busWrite p v s).t = s.t := rfl
@[simp] theorem busWrite_ad (p : Addr) (v : Byte) : (busWrite p v s).ad = s.ad := rfl
@[simp] theorem busWrite_dl (p : Addr) (v : Byte) : (busWrite p v s).dl = s.dl := rfl
@[simp] theorem busWrite_crossed (p : Addr) (v : Byte) : (busWrite p v s).crossed = s.crossed := rfl
@[simp] theorem busWrite_vec (p : Addr) (v : Byte) : (busWrite p v s).vec = s.vec := rfl
@[simp] theorem busWrite_bflag (p : Addr) (v : Byte) : (busWrite p v s).bflag = s.bflag := rfl
@[simp] theorem busWrite_queue (p : Addr) (v : Byte) : (busWrite p v s).queue = s.queue := rfl
@[simp] theorem busWrite_nmiPrev (p : Addr) (v : Byte) : (busWrite p v s).nmiPrev = s.nmiPrev := rfl
@[simp] theorem busWrite_nmiPending (p : Addr) (v : Byte) : (busWrite p v s).nmiPending = s.nmiPending := rfl
@[simp] theorem busWrite_irqSampled (p : Addr) (v : Byte) : (busWrite p v s).irqSampled = s.irqSampled := rfl
@[simp] theorem busWrite_intNext (p : Addr) (v : Byte) : (busWrite p v s).intNext = s.intNext := rfl
@[simp] theorem busWrite_busLatch (p : Addr) (v : Byte) : (busWrite p v s).busLatch = v := rfl
@[simp] theorem busWrite_halted (p : Addr) (v : Byte) : (busWrite p v s).halted = s.halted := rfl
@[simp] theorem busWrite_fault (p : Addr) (v : Byte) : (busWrite p v s).fault = faultAfter p s := rfl
@[simp] theorem busWrite_runState (p : Addr) (v : Byte) : (busWrite p v s).runState = s.runState := rfl
@[simp] theorem busWrite_breakpoints (p : Addr) (v : Byte) : (busWrite p v s).breakpoints = s.breakpoints := rfl
@[simp] theorem busWrite_nextBreakpointId (p : Addr) (v : Byte) : (busWrite p v s).nextBreakpointId = s.nextBreakpointId := rfl
@[simp] theorem busWrite_pauseRequested (p : Addr) (v : Byte) : (busWrite p v s).pauseRequested = s.pauseRequested := rfl
@[simp] theorem busWrite_frameSeen (p : Addr) (v : Byte) : (busWrite p v s).frameSeen = s.frameSeen := rfl
@[simp] theorem busWrite_stopReason (p : Addr) (v : Byte) : (busWrite p v s).stopReason = s.stopReason := rfl
@[simp] theorem busWrite_ppuAcc (p : Addr) (v : Byte) : (busWrite p v s).ppuAcc = s.ppuAcc := rfl
@[simp] theorem busWrite_cycles (p : Addr) (v : Byte) : (busWrite p v s).cycles = s.cycles := rfl
@[simp] theorem busWrite_ppuSteps (p : Addr) (v : Byte) : (busWrite p v s).ppuSteps = s.ppuSteps := rfl
@[simp] theorem busWrite_ppuLine (p : Addr) (v : Byte) : (busWrite p v s).ppuLine = s.ppuLine := rfl
@[simp] theorem busWrite_irqAsserting (p : Addr) (v : Byte) : (busWrite p v s).irqAsserting = s.irqAsserting := rfl
@[simp] theorem busWrite_mem (p : Addr) (v : Byte) : (busWrite p v s).mem = memAfterWrite (target s p) v s.mem := rfl
@[simp] theorem busWrite_profile (p : Addr) (v : Byte) : (busWrite p v s).profile = s.profile := rfl
@[simp] theorem busWrite_inputs (p : Addr) (v : Byte) : (busWrite p v s).inputs = s.inputs := rfl
@[simp] theorem busWrite_commands (p : Addr) (v : Byte) : (busWrite p v s).commands = s.commands := rfl
@[simp] theorem busWrite_portLog (p : Addr) (v : Byte) : (busWrite p v s).portLog = writeEvents (target s p) v ++ s.portLog := rfl
@[simp] theorem busWrite_freeIdx (p : Addr) (v : Byte) : (busWrite p v s).freeIdx = s.freeIdx := rfl

/-! ### endOfCycle -/

@[simp] theorem endOfCycle_a (b : Bool) : (endOfCycle b s).a = s.a := rfl
@[simp] theorem endOfCycle_x (b : Bool) : (endOfCycle b s).x = s.x := rfl
@[simp] theorem endOfCycle_y (b : Bool) : (endOfCycle b s).y = s.y := rfl
@[simp] theorem endOfCycle_sp (b : Bool) : (endOfCycle b s).sp = s.sp := rfl
@[simp] theorem endOfCycle_pc (b : Bool) : (endOfCycle b s).pc = s.pc := rfl
@[simp] theorem endOfCycle_fN (b : Bool) : (endOfCycle b s).fN = s.fN := rfl
@[simp] theorem endOfCycle_fV (b : Bool) : (endOfCycle b s).fV = s.fV := rfl
@[simp] theorem endOfCycle_fD (b : Bool) : (endOfCycle b s).fD = s.fD := rfl
@[simp] theorem endOfCycle_fI (b : Bool) : (endOfCycle b s).fI = s.fI := rfl
@[simp] theorem endOfCycle_fZ (b : Bool) : (endOfCycle b s).fZ = s.fZ := rfl
@[simp] theorem endOfCycle_fC (b : Bool) : (endOfCycle b s).fC = s.fC := rfl
@[simp] theorem endOfCycle_seq (b : Bool) : (endOfCycle b s).seq = s.seq := rfl
@[simp] theorem endOfCycle_ir (b : Bool) : (endOfCycle b s).ir = s.ir := rfl
@[simp] theorem endOfCycle_t (b : Bool) : (endOfCycle b s).t = s.t := rfl
@[simp] theorem endOfCycle_ad (b : Bool) : (endOfCycle b s).ad = s.ad := rfl
@[simp] theorem endOfCycle_dl (b : Bool) : (endOfCycle b s).dl = s.dl := rfl
@[simp] theorem endOfCycle_crossed (b : Bool) : (endOfCycle b s).crossed = s.crossed := rfl
@[simp] theorem endOfCycle_vec (b : Bool) : (endOfCycle b s).vec = s.vec := rfl
@[simp] theorem endOfCycle_bflag (b : Bool) : (endOfCycle b s).bflag = s.bflag := rfl
@[simp] theorem endOfCycle_queue (b : Bool) : (endOfCycle b s).queue = s.queue := rfl
@[simp] theorem endOfCycle_busLatch (b : Bool) : (endOfCycle b s).busLatch = s.busLatch := rfl
@[simp] theorem endOfCycle_halted (b : Bool) : (endOfCycle b s).halted = s.halted := rfl
@[simp] theorem endOfCycle_fault (b : Bool) : (endOfCycle b s).fault = s.fault := rfl
@[simp] theorem endOfCycle_runState (b : Bool) : (endOfCycle b s).runState = s.runState := rfl
@[simp] theorem endOfCycle_breakpoints (b : Bool) : (endOfCycle b s).breakpoints = s.breakpoints := rfl
@[simp] theorem endOfCycle_nextBreakpointId (b : Bool) : (endOfCycle b s).nextBreakpointId = s.nextBreakpointId := rfl
@[simp] theorem endOfCycle_pauseRequested (b : Bool) : (endOfCycle b s).pauseRequested = s.pauseRequested := rfl
@[simp] theorem endOfCycle_frameSeen (b : Bool) : (endOfCycle b s).frameSeen = (s.frameSeen || ((inputNow s).frame && decide (0 < ppuStepsNow s))) := rfl
@[simp] theorem endOfCycle_stopReason (b : Bool) : (endOfCycle b s).stopReason = s.stopReason := rfl
@[simp] theorem endOfCycle_ppuAcc (b : Bool) : (endOfCycle b s).ppuAcc = (s.ppuAcc + s.profile.ratioP) % s.profile.ratioQ := rfl
@[simp] theorem endOfCycle_cycles (b : Bool) : (endOfCycle b s).cycles = s.cycles + 1 := rfl
@[simp] theorem endOfCycle_ppuSteps (b : Bool) : (endOfCycle b s).ppuSteps = s.ppuSteps + ppuStepsNow s := rfl
@[simp] theorem endOfCycle_ppuLine (b : Bool) : (endOfCycle b s).ppuLine = (inputNow s).ppuLine := rfl
@[simp] theorem endOfCycle_irqAsserting (b : Bool) : (endOfCycle b s).irqAsserting = (inputNow s).irqAsserting := rfl
@[simp] theorem endOfCycle_mem (b : Bool) : (endOfCycle b s).mem = s.mem := rfl
@[simp] theorem endOfCycle_profile (b : Bool) : (endOfCycle b s).profile = s.profile := rfl
@[simp] theorem endOfCycle_inputs (b : Bool) : (endOfCycle b s).inputs = s.inputs.tail := rfl
@[simp] theorem endOfCycle_commands (b : Bool) : (endOfCycle b s).commands = s.commands := rfl
@[simp] theorem endOfCycle_portLog (b : Bool) : (endOfCycle b s).portLog = s.portLog := rfl
@[simp] theorem endOfCycle_freeIdx (b : Bool) : (endOfCycle b s).freeIdx = s.freeIdx := rfl

/-! ### decideVector -/

@[simp] theorem decideVector_a : (decideVector s).a = s.a := rfl
@[simp] theorem decideVector_x : (decideVector s).x = s.x := rfl
@[simp] theorem decideVector_y : (decideVector s).y = s.y := rfl
@[simp] theorem decideVector_sp : (decideVector s).sp = s.sp := rfl
@[simp] theorem decideVector_pc : (decideVector s).pc = s.pc := rfl
@[simp] theorem decideVector_fN : (decideVector s).fN = s.fN := rfl
@[simp] theorem decideVector_fV : (decideVector s).fV = s.fV := rfl
@[simp] theorem decideVector_fD : (decideVector s).fD = s.fD := rfl
@[simp] theorem decideVector_fI : (decideVector s).fI = s.fI := rfl
@[simp] theorem decideVector_fZ : (decideVector s).fZ = s.fZ := rfl
@[simp] theorem decideVector_fC : (decideVector s).fC = s.fC := rfl
@[simp] theorem decideVector_seq : (decideVector s).seq = s.seq := rfl
@[simp] theorem decideVector_ir : (decideVector s).ir = s.ir := rfl
@[simp] theorem decideVector_t : (decideVector s).t = s.t := rfl
@[simp] theorem decideVector_ad : (decideVector s).ad = s.ad := rfl
@[simp] theorem decideVector_dl : (decideVector s).dl = s.dl := rfl
@[simp] theorem decideVector_crossed : (decideVector s).crossed = s.crossed := rfl
@[simp] theorem decideVector_vec : (decideVector s).vec = if s.nmiPending then s.profile.vecNmi else s.profile.vecIrq := rfl
@[simp] theorem decideVector_bflag : (decideVector s).bflag = s.bflag := rfl
@[simp] theorem decideVector_queue : (decideVector s).queue = s.queue := rfl
@[simp] theorem decideVector_nmiPrev : (decideVector s).nmiPrev = s.nmiPrev := rfl
@[simp] theorem decideVector_nmiPending : (decideVector s).nmiPending = false := rfl
@[simp] theorem decideVector_irqSampled : (decideVector s).irqSampled = s.irqSampled := rfl
@[simp] theorem decideVector_intNext : (decideVector s).intNext = s.intNext := rfl
@[simp] theorem decideVector_busLatch : (decideVector s).busLatch = s.busLatch := rfl
@[simp] theorem decideVector_halted : (decideVector s).halted = s.halted := rfl
@[simp] theorem decideVector_fault : (decideVector s).fault = s.fault := rfl
@[simp] theorem decideVector_runState : (decideVector s).runState = s.runState := rfl
@[simp] theorem decideVector_breakpoints : (decideVector s).breakpoints = s.breakpoints := rfl
@[simp] theorem decideVector_nextBreakpointId : (decideVector s).nextBreakpointId = s.nextBreakpointId := rfl
@[simp] theorem decideVector_pauseRequested : (decideVector s).pauseRequested = s.pauseRequested := rfl
@[simp] theorem decideVector_frameSeen : (decideVector s).frameSeen = s.frameSeen := rfl
@[simp] theorem decideVector_stopReason : (decideVector s).stopReason = s.stopReason := rfl
@[simp] theorem decideVector_ppuAcc : (decideVector s).ppuAcc = s.ppuAcc := rfl
@[simp] theorem decideVector_cycles : (decideVector s).cycles = s.cycles := rfl
@[simp] theorem decideVector_ppuSteps : (decideVector s).ppuSteps = s.ppuSteps := rfl
@[simp] theorem decideVector_ppuLine : (decideVector s).ppuLine = s.ppuLine := rfl
@[simp] theorem decideVector_irqAsserting : (decideVector s).irqAsserting = s.irqAsserting := rfl
@[simp] theorem decideVector_mem : (decideVector s).mem = s.mem := rfl
@[simp] theorem decideVector_profile : (decideVector s).profile = s.profile := rfl
@[simp] theorem decideVector_inputs : (decideVector s).inputs = s.inputs := rfl
@[simp] theorem decideVector_commands : (decideVector s).commands = s.commands := rfl
@[simp] theorem decideVector_portLog : (decideVector s).portLog = s.portLog := rfl
@[simp] theorem decideVector_freeIdx : (decideVector s).freeIdx = s.freeIdx := rfl

/-! ### advance -/

@[simp] theorem advance_a (us : List MicroOp) : (advance us s).a = s.a := rfl
@[simp] theorem advance_x (us : List MicroOp) : (advance us s).x = s.x := rfl
@[simp] theorem advance_y (us : List MicroOp) : (advance us s).y = s.y := rfl
@[simp] theorem advance_sp (us : List MicroOp) : (advance us s).sp = s.sp := rfl
@[simp] theorem advance_pc (us : List MicroOp) : (advance us s).pc = s.pc := rfl
@[simp] theorem advance_fN (us : List MicroOp) : (advance us s).fN = s.fN := rfl
@[simp] theorem advance_fV (us : List MicroOp) : (advance us s).fV = s.fV := rfl
@[simp] theorem advance_fD (us : List MicroOp) : (advance us s).fD = s.fD := rfl
@[simp] theorem advance_fI (us : List MicroOp) : (advance us s).fI = s.fI := rfl
@[simp] theorem advance_fZ (us : List MicroOp) : (advance us s).fZ = s.fZ := rfl
@[simp] theorem advance_fC (us : List MicroOp) : (advance us s).fC = s.fC := rfl
@[simp] theorem advance_ir (us : List MicroOp) : (advance us s).ir = s.ir := rfl
@[simp] theorem advance_ad (us : List MicroOp) : (advance us s).ad = s.ad := rfl
@[simp] theorem advance_dl (us : List MicroOp) : (advance us s).dl = s.dl := rfl
@[simp] theorem advance_crossed (us : List MicroOp) : (advance us s).crossed = s.crossed := rfl
@[simp] theorem advance_vec (us : List MicroOp) : (advance us s).vec = s.vec := rfl
@[simp] theorem advance_bflag (us : List MicroOp) : (advance us s).bflag = s.bflag := rfl
@[simp] theorem advance_nmiPrev (us : List MicroOp) : (advance us s).nmiPrev = s.nmiPrev := rfl
@[simp] theorem advance_nmiPending (us : List MicroOp) : (advance us s).nmiPending = s.nmiPending := rfl
@[simp] theorem advance_irqSampled (us : List MicroOp) : (advance us s).irqSampled = s.irqSampled := rfl
@[simp] theorem advance_intNext (us : List MicroOp) : (advance us s).intNext = s.intNext := rfl
@[simp] theorem advance_busLatch (us : List MicroOp) : (advance us s).busLatch = s.busLatch := rfl
@[simp] theorem advance_halted (us : List MicroOp) : (advance us s).halted = s.halted := rfl
@[simp] theorem advance_fault (us : List MicroOp) : (advance us s).fault = s.fault := rfl
@[simp] theorem advance_runState (us : List MicroOp) : (advance us s).runState = s.runState := rfl
@[simp] theorem advance_breakpoints (us : List MicroOp) : (advance us s).breakpoints = s.breakpoints := rfl
@[simp] theorem advance_nextBreakpointId (us : List MicroOp) : (advance us s).nextBreakpointId = s.nextBreakpointId := rfl
@[simp] theorem advance_pauseRequested (us : List MicroOp) : (advance us s).pauseRequested = s.pauseRequested := rfl
@[simp] theorem advance_frameSeen (us : List MicroOp) : (advance us s).frameSeen = s.frameSeen := rfl
@[simp] theorem advance_stopReason (us : List MicroOp) : (advance us s).stopReason = s.stopReason := rfl
@[simp] theorem advance_ppuAcc (us : List MicroOp) : (advance us s).ppuAcc = s.ppuAcc := rfl
@[simp] theorem advance_cycles (us : List MicroOp) : (advance us s).cycles = s.cycles := rfl
@[simp] theorem advance_ppuSteps (us : List MicroOp) : (advance us s).ppuSteps = s.ppuSteps := rfl
@[simp] theorem advance_ppuLine (us : List MicroOp) : (advance us s).ppuLine = s.ppuLine := rfl
@[simp] theorem advance_irqAsserting (us : List MicroOp) : (advance us s).irqAsserting = s.irqAsserting := rfl
@[simp] theorem advance_mem (us : List MicroOp) : (advance us s).mem = s.mem := rfl
@[simp] theorem advance_profile (us : List MicroOp) : (advance us s).profile = s.profile := rfl
@[simp] theorem advance_inputs (us : List MicroOp) : (advance us s).inputs = s.inputs := rfl
@[simp] theorem advance_commands (us : List MicroOp) : (advance us s).commands = s.commands := rfl
@[simp] theorem advance_portLog (us : List MicroOp) : (advance us s).portLog = s.portLog := rfl
@[simp] theorem advance_freeIdx (us : List MicroOp) : (advance us s).freeIdx = s.freeIdx := rfl

/-! ### startInstr -/

@[simp] theorem startInstr_a : (startInstr s).a = s.a := rfl
@[simp] theorem startInstr_x : (startInstr s).x = s.x := rfl
@[simp] theorem startInstr_y : (startInstr s).y = s.y := rfl
@[simp] theorem startInstr_sp : (startInstr s).sp = s.sp := rfl
@[simp] theorem startInstr_pc : (startInstr s).pc = s.pc := rfl
@[simp] theorem startInstr_fN : (startInstr s).fN = s.fN := rfl
@[simp] theorem startInstr_fV : (startInstr s).fV = s.fV := rfl
@[simp] theorem startInstr_fD : (startInstr s).fD = s.fD := rfl
@[simp] theorem startInstr_fI : (startInstr s).fI = s.fI := rfl
@[simp] theorem startInstr_fZ : (startInstr s).fZ = s.fZ := rfl
@[simp] theorem startInstr_fC : (startInstr s).fC = s.fC := rfl
@[simp] theorem startInstr_seq : (startInstr s).seq = .instr := rfl
@[simp] theorem startInstr_ir : (startInstr s).ir = s.ir := rfl
@[simp] theorem startInstr_t : (startInstr s).t = 1 := rfl
@[simp] theorem startInstr_ad : (startInstr s).ad = s.ad := rfl
@[simp] theorem startInstr_dl : (startInstr s).dl = s.dl := rfl
@[simp] theorem startInstr_crossed : (startInstr s).crossed = s.crossed := rfl
@[simp] theorem startInstr_vec : (startInstr s).vec = s.vec := rfl
@[simp] theorem startInstr_bflag : (startInstr s).bflag = s.bflag := rfl
@[simp] theorem startInstr_queue : (startInstr s).queue = s.queue := rfl
@[simp] theorem startInstr_nmiPrev : (startInstr s).nmiPrev = s.nmiPrev := rfl
@[simp] theorem startInstr_nmiPending : (startInstr s).nmiPending = s.nmiPending := rfl
@[simp] theorem startInstr_irqSampled : (startInstr s).irqSampled = s.irqSampled := rfl
@[simp] theorem startInstr_intNext : (startInstr s).intNext = s.intNext := rfl
@[simp] theorem startInstr_busLatch : (startInstr s).busLatch = s.busLatch := rfl
@[simp] theorem startInstr_halted : (startInstr s).halted = s.halted := rfl
@[simp] theorem startInstr_fault : (startInstr s).fault = s.fault := rfl
@[simp] theorem startInstr_runState : (startInstr s).runState = s.runState := rfl
@[simp] theorem startInstr_breakpoints : (startInstr s).breakpoints = s.breakpoints := rfl
@[simp] theorem startInstr_nextBreakpointId : (startInstr s).nextBreakpointId = s.nextBreakpointId := rfl
@[simp] theorem startInstr_pauseRequested : (startInstr s).pauseRequested = s.pauseRequested := rfl
@[simp] theorem startInstr_frameSeen : (startInstr s).frameSeen = s.frameSeen := rfl
@[simp] theorem startInstr_stopReason : (startInstr s).stopReason = s.stopReason := rfl
@[simp] theorem startInstr_ppuAcc : (startInstr s).ppuAcc = s.ppuAcc := rfl
@[simp] theorem startInstr_cycles : (startInstr s).cycles = s.cycles := rfl
@[simp] theorem startInstr_ppuSteps : (startInstr s).ppuSteps = s.ppuSteps := rfl
@[simp] theorem startInstr_ppuLine : (startInstr s).ppuLine = s.ppuLine := rfl
@[simp] theorem startInstr_irqAsserting : (startInstr s).irqAsserting = s.irqAsserting := rfl
@[simp] theorem startInstr_mem : (startInstr s).mem = s.mem := rfl
@[simp] theorem startInstr_profile : (startInstr s).profile = s.profile := rfl
@[simp] theorem startInstr_inputs : (startInstr s).inputs = s.inputs := rfl
@[simp] theorem startInstr_commands : (startInstr s).commands = s.commands := rfl
@[simp] theorem startInstr_portLog : (startInstr s).portLog = s.portLog := rfl
@[simp] theorem startInstr_freeIdx : (startInstr s).freeIdx = s.freeIdx := rfl

/-! ### endReset -/

@[simp] theorem endReset_a : (endReset s).a = s.a := rfl
@[simp] theorem endReset_x : (endReset s).x = s.x := rfl
@[simp] theorem endReset_y : (endReset s).y = s.y := rfl
@[simp] theorem endReset_sp : (endReset s).sp = s.sp := rfl
@[simp] theorem endReset_pc : (endReset s).pc = s.pc := rfl
@[simp] theorem endReset_fN : (endReset s).fN = s.fN := rfl
@[simp] theorem endReset_fV : (endReset s).fV = s.fV := rfl
@[simp] theorem endReset_fD : (endReset s).fD = s.fD := rfl
@[simp] theorem endReset_fI : (endReset s).fI = s.fI := rfl
@[simp] theorem endReset_fZ : (endReset s).fZ = s.fZ := rfl
@[simp] theorem endReset_fC : (endReset s).fC = s.fC := rfl
@[simp] theorem endReset_seq : (endReset s).seq = s.seq := rfl
@[simp] theorem endReset_ir : (endReset s).ir = s.ir := rfl
@[simp] theorem endReset_t : (endReset s).t = s.t := rfl
@[simp] theorem endReset_ad : (endReset s).ad = s.ad := rfl
@[simp] theorem endReset_dl : (endReset s).dl = s.dl := rfl
@[simp] theorem endReset_crossed : (endReset s).crossed = s.crossed := rfl
@[simp] theorem endReset_vec : (endReset s).vec = s.vec := rfl
@[simp] theorem endReset_bflag : (endReset s).bflag = s.bflag := rfl
@[simp] theorem endReset_queue : (endReset s).queue = s.queue := rfl
@[simp] theorem endReset_nmiPrev : (endReset s).nmiPrev = s.nmiPrev := rfl
@[simp] theorem endReset_nmiPending : (endReset s).nmiPending = false := rfl
@[simp] theorem endReset_irqSampled : (endReset s).irqSampled = s.irqSampled := rfl
@[simp] theorem endReset_intNext : (endReset s).intNext = s.intNext := rfl
@[simp] theorem endReset_busLatch : (endReset s).busLatch = s.busLatch := rfl
@[simp] theorem endReset_halted : (endReset s).halted = s.halted := rfl
@[simp] theorem endReset_fault : (endReset s).fault = none := rfl
@[simp] theorem endReset_runState : (endReset s).runState = s.runState := rfl
@[simp] theorem endReset_breakpoints : (endReset s).breakpoints = s.breakpoints := rfl
@[simp] theorem endReset_nextBreakpointId : (endReset s).nextBreakpointId = s.nextBreakpointId := rfl
@[simp] theorem endReset_pauseRequested : (endReset s).pauseRequested = s.pauseRequested := rfl
@[simp] theorem endReset_frameSeen : (endReset s).frameSeen = s.frameSeen := rfl
@[simp] theorem endReset_stopReason : (endReset s).stopReason = s.stopReason := rfl
@[simp] theorem endReset_ppuAcc : (endReset s).ppuAcc = s.ppuAcc := rfl
@[simp] theorem endReset_cycles : (endReset s).cycles = s.cycles := rfl
@[simp] theorem endReset_ppuSteps : (endReset s).ppuSteps = s.ppuSteps := rfl
@[simp] theorem endReset_ppuLine : (endReset s).ppuLine = s.ppuLine := rfl
@[simp] theorem endReset_irqAsserting : (endReset s).irqAsserting = s.irqAsserting := rfl
@[simp] theorem endReset_mem : (endReset s).mem = s.mem := rfl
@[simp] theorem endReset_profile : (endReset s).profile = s.profile := rfl
@[simp] theorem endReset_inputs : (endReset s).inputs = s.inputs := rfl
@[simp] theorem endReset_commands : (endReset s).commands = s.commands := rfl
@[simp] theorem endReset_portLog : (endReset s).portLog = s.portLog := rfl
@[simp] theorem endReset_freeIdx : (endReset s).freeIdx = s.freeIdx := rfl

/-! ### boundaryCheck -/

@[simp] theorem boundaryCheck_a : (boundaryCheck s).a = s.a := rfl
@[simp] theorem boundaryCheck_x : (boundaryCheck s).x = s.x := rfl
@[simp] theorem boundaryCheck_y : (boundaryCheck s).y = s.y := rfl
@[simp] theorem boundaryCheck_sp : (boundaryCheck s).sp = s.sp := rfl
@[simp] theorem boundaryCheck_pc : (boundaryCheck s).pc = s.pc := rfl
@[simp] theorem boundaryCheck_fN : (boundaryCheck s).fN = s.fN := rfl
@[simp] theorem boundaryCheck_fV : (boundaryCheck s).fV = s.fV := rfl
@[simp] theorem boundaryCheck_fD : (boundaryCheck s).fD = s.fD := rfl
@[simp] theorem boundaryCheck_fI : (boundaryCheck s).fI = s.fI := rfl
@[simp] theorem boundaryCheck_fZ : (boundaryCheck s).fZ = s.fZ := rfl
@[simp] theorem boundaryCheck_fC : (boundaryCheck s).fC = s.fC := rfl
@[simp] theorem boundaryCheck_seq : (boundaryCheck s).seq = s.seq := rfl
@[simp] theorem boundaryCheck_ir : (boundaryCheck s).ir = s.ir := rfl
@[simp] theorem boundaryCheck_t : (boundaryCheck s).t = s.t := rfl
@[simp] theorem boundaryCheck_ad : (boundaryCheck s).ad = s.ad := rfl
@[simp] theorem boundaryCheck_dl : (boundaryCheck s).dl = s.dl := rfl
@[simp] theorem boundaryCheck_crossed : (boundaryCheck s).crossed = s.crossed := rfl
@[simp] theorem boundaryCheck_vec : (boundaryCheck s).vec = s.vec := rfl
@[simp] theorem boundaryCheck_bflag : (boundaryCheck s).bflag = s.bflag := rfl
@[simp] theorem boundaryCheck_queue : (boundaryCheck s).queue = s.queue := rfl
@[simp] theorem boundaryCheck_nmiPrev : (boundaryCheck s).nmiPrev = s.nmiPrev := rfl
@[simp] theorem boundaryCheck_nmiPending : (boundaryCheck s).nmiPending = s.nmiPending := rfl
@[simp] theorem boundaryCheck_irqSampled : (boundaryCheck s).irqSampled = s.irqSampled := rfl
@[simp] theorem boundaryCheck_intNext : (boundaryCheck s).intNext = s.intNext := rfl
@[simp] theorem boundaryCheck_busLatch : (boundaryCheck s).busLatch = s.busLatch := rfl
@[simp] theorem boundaryCheck_halted : (boundaryCheck s).halted = s.halted := rfl
@[simp] theorem boundaryCheck_fault : (boundaryCheck s).fault = s.fault := rfl
@[simp] theorem boundaryCheck_runState : (boundaryCheck s).runState = runStateAfter (boundaryStop s) s := rfl
@[simp] theorem boundaryCheck_breakpoints : (boundaryCheck s).breakpoints = s.breakpoints := rfl
@[simp] theorem boundaryCheck_nextBreakpointId : (boundaryCheck s).nextBreakpointId = s.nextBreakpointId := rfl
@[simp] theorem boundaryCheck_frameSeen : (boundaryCheck s).frameSeen = s.frameSeen := rfl
@[simp] theorem boundaryCheck_stopReason : (boundaryCheck s).stopReason = (boundaryStop s).getD s.stopReason := rfl
@[simp] theorem boundaryCheck_ppuAcc : (boundaryCheck s).ppuAcc = s.ppuAcc := rfl
@[simp] theorem boundaryCheck_cycles : (boundaryCheck s).cycles = s.cycles := rfl
@[simp] theorem boundaryCheck_ppuSteps : (boundaryCheck s).ppuSteps = s.ppuSteps := rfl
@[simp] theorem boundaryCheck_ppuLine : (boundaryCheck s).ppuLine = s.ppuLine := rfl
@[simp] theorem boundaryCheck_irqAsserting : (boundaryCheck s).irqAsserting = s.irqAsserting := rfl
@[simp] theorem boundaryCheck_mem : (boundaryCheck s).mem = s.mem := rfl
@[simp] theorem boundaryCheck_profile : (boundaryCheck s).profile = s.profile := rfl
@[simp] theorem boundaryCheck_inputs : (boundaryCheck s).inputs = s.inputs := rfl
@[simp] theorem boundaryCheck_commands : (boundaryCheck s).commands = s.commands := rfl
@[simp] theorem boundaryCheck_portLog : (boundaryCheck s).portLog = s.portLog := rfl
@[simp] theorem boundaryCheck_freeIdx : (boundaryCheck s).freeIdx = s.freeIdx := rfl

end Sys2Proof.Machine
end

