-- ==== Sys2Proof/Laws/Cycle.lean ====
section
/-! SUPPORT. What one cycle and a whole sequence can do: the register actions leave the Bus, the clock and the debugger
alone; a cycle is its access, its actions and `end_of_cycle()`; an induction principle for `runOps`. -/

namespace Sys2Proof.Machine

/-! ### The register actions -/

@[simp] theorem act_seq (u : MicroOp) (v : Byte) (s : State) : (u.act v s).seq = s.seq := by
  cases u <;> first | rfl | (rename_i op; cases op <;> rfl)

@[simp] theorem act_t (u : MicroOp) (v : Byte) (s : State) : (u.act v s).t = s.t := by
  cases u <;> first | rfl | (rename_i op; cases op <;> rfl)

@[simp] theorem act_queue (u : MicroOp) (v : Byte) (s : State) : (u.act v s).queue = s.queue := by
  cases u <;> first | rfl | (rename_i op; cases op <;> rfl)

@[simp] theorem act_nmiPrev (u : MicroOp) (v : Byte) (s : State) : (u.act v s).nmiPrev = s.nmiPrev := by
  cases u <;> first | rfl | (rename_i op; cases op <;> rfl)

@[simp] theorem act_nmiPending (u : MicroOp) (v : Byte) (s : State) : (u.act v s).nmiPending = s.nmiPending := by
  cases u <;> first | rfl | (rename_i op; cases op <;> rfl)

@[simp] theorem act_irqSampled (u : MicroOp) (v : Byte) (s : State) : (u.act v s).irqSampled = s.irqSampled := by
  cases u <;> first | rfl | (rename_i op; cases op <;> rfl)

@[simp] theorem act_busLatch (u : MicroOp) (v : Byte) (s : State) : (u.act v s).busLatch = s.busLatch := by
  cases u <;> first | rfl | (rename_i op; cases op <;> rfl)

@[simp] theorem act_runState (u : MicroOp) (v : Byte) (s : State) : (u.act v s).runState = s.runState := by
  cases u <;> first | rfl | (rename_i op; cases op <;> rfl)

@[simp] theorem act_breakpoints (u : MicroOp) (v : Byte) (s : State) : (u.act v s).breakpoints = s.breakpoints := by
  cases u <;> first | rfl | (rename_i op; cases op <;> rfl)

@[simp] theorem act_nextBreakpointId (u : MicroOp) (v : Byte) (s : State) : (u.act v s).nextBreakpointId = s.nextBreakpointId := by
  cases u <;> first | rfl | (rename_i op; cases op <;> rfl)

@[simp] theorem act_pauseRequested (u : MicroOp) (v : Byte) (s : State) : (u.act v s).pauseRequested = s.pauseRequested := by
  cases u <;> first | rfl | (rename_i op; cases op <;> rfl)

@[simp] theorem act_frameSeen (u : MicroOp) (v : Byte) (s : State) : (u.act v s).frameSeen = s.frameSeen := by
  cases u <;> first | rfl | (rename_i op; cases op <;> rfl)

@[simp] theorem act_stopReason (u : MicroOp) (v : Byte) (s : State) : (u.act v s).stopReason = s.stopReason := by
  cases u <;> first | rfl | (rename_i op; cases op <;> rfl)

@[simp] theorem act_ppuAcc (u : MicroOp) (v : Byte) (s : State) : (u.act v s).ppuAcc = s.ppuAcc := by
  cases u <;> first | rfl | (rename_i op; cases op <;> rfl)

@[simp] theorem act_cycles (u : MicroOp) (v : Byte) (s : State) : (u.act v s).cycles = s.cycles := by
  cases u <;> first | rfl | (rename_i op; cases op <;> rfl)

@[simp] theorem act_ppuSteps (u : MicroOp) (v : Byte) (s : State) : (u.act v s).ppuSteps = s.ppuSteps := by
  cases u <;> first | rfl | (rename_i op; cases op <;> rfl)

@[simp] theorem act_ppuLine (u : MicroOp) (v : Byte) (s : State) : (u.act v s).ppuLine = s.ppuLine := by
  cases u <;> first | rfl | (rename_i op; cases op <;> rfl)

@[simp] theorem act_irqAsserting (u : MicroOp) (v : Byte) (s : State) : (u.act v s).irqAsserting = s.irqAsserting := by
  cases u <;> first | rfl | (rename_i op; cases op <;> rfl)

@[simp] theorem act_mem (u : MicroOp) (v : Byte) (s : State) : (u.act v s).mem = s.mem := by
  cases u <;> first | rfl | (rename_i op; cases op <;> rfl)

@[simp] theorem act_profile (u : MicroOp) (v : Byte) (s : State) : (u.act v s).profile = s.profile := by
  cases u <;> first | rfl | (rename_i op; cases op <;> rfl)

@[simp] theorem act_inputs (u : MicroOp) (v : Byte) (s : State) : (u.act v s).inputs = s.inputs := by
  cases u <;> first | rfl | (rename_i op; cases op <;> rfl)

@[simp] theorem act_commands (u : MicroOp) (v : Byte) (s : State) : (u.act v s).commands = s.commands := by
  cases u <;> first | rfl | (rename_i op; cases op <;> rfl)

@[simp] theorem act_portLog (u : MicroOp) (v : Byte) (s : State) : (u.act v s).portLog = s.portLog := by
  cases u <;> first | rfl | (rename_i op; cases op <;> rfl)

@[simp] theorem act_vec (u : MicroOp) (v : Byte) (s : State) : (u.act v s).vec = s.vec := by
  cases u <;> first | rfl | (rename_i op; cases op <;> rfl)

/-- A skipped cycle depends on the flags and on `crossed` alone. -/
theorem skipped_congr (u : MicroOp) {s t : State} (hc : s.crossed = t.crossed) (hN : s.fN = t.fN) (hV : s.fV = t.fV)
    (hZ : s.fZ = t.fZ) (hC : s.fC = t.fC) : u.skipped s = u.skipped t := by
  have hold : ∀ c : Cond, c.holds s = c.holds t := fun c => by
    cases c <;> simp only [Cond.holds, hN, hV, hZ, hC]
  cases u <;> simp only [MicroOp.skipped, hc, hold]

/-! ### The vector decision -/

@[simp] theorem late_a (u : MicroOp) (s : State) : (u.late s).a = s.a := by unfold MicroOp.late; split <;> rfl
@[simp] theorem late_x (u : MicroOp) (s : State) : (u.late s).x = s.x := by unfold MicroOp.late; split <;> rfl
@[simp] theorem late_y (u : MicroOp) (s : State) : (u.late s).y = s.y := by unfold MicroOp.late; split <;> rfl
@[simp] theorem late_sp (u : MicroOp) (s : State) : (u.late s).sp = s.sp := by unfold MicroOp.late; split <;> rfl
@[simp] theorem late_pc (u : MicroOp) (s : State) : (u.late s).pc = s.pc := by unfold MicroOp.late; split <;> rfl
@[simp] theorem late_fN (u : MicroOp) (s : State) : (u.late s).fN = s.fN := by unfold MicroOp.late; split <;> rfl
@[simp] theorem late_fV (u : MicroOp) (s : State) : (u.late s).fV = s.fV := by unfold MicroOp.late; split <;> rfl
@[simp] theorem late_fD (u : MicroOp) (s : State) : (u.late s).fD = s.fD := by unfold MicroOp.late; split <;> rfl
@[simp] theorem late_fI (u : MicroOp) (s : State) : (u.late s).fI = s.fI := by unfold MicroOp.late; split <;> rfl
@[simp] theorem late_fZ (u : MicroOp) (s : State) : (u.late s).fZ = s.fZ := by unfold MicroOp.late; split <;> rfl
@[simp] theorem late_fC (u : MicroOp) (s : State) : (u.late s).fC = s.fC := by unfold MicroOp.late; split <;> rfl
@[simp] theorem late_seq (u : MicroOp) (s : State) : (u.late s).seq = s.seq := by unfold MicroOp.late; split <;> rfl
@[simp] theorem late_ir (u : MicroOp) (s : State) : (u.late s).ir = s.ir := by unfold MicroOp.late; split <;> rfl
@[simp] theorem late_t (u : MicroOp) (s : State) : (u.late s).t = s.t := by unfold MicroOp.late; split <;> rfl
@[simp] theorem late_ad (u : MicroOp) (s : State) : (u.late s).ad = s.ad := by unfold MicroOp.late; split <;> rfl
@[simp] theorem late_dl (u : MicroOp) (s : State) : (u.late s).dl = s.dl := by unfold MicroOp.late; split <;> rfl
@[simp] theorem late_crossed (u : MicroOp) (s : State) : (u.late s).crossed = s.crossed := by unfold MicroOp.late; split <;> rfl
@[simp] theorem late_bflag (u : MicroOp) (s : State) : (u.late s).bflag = s.bflag := by unfold MicroOp.late; split <;> rfl
@[simp] theorem late_queue (u : MicroOp) (s : State) : (u.late s).queue = s.queue := by unfold MicroOp.late; split <;> rfl
@[simp] theorem late_nmiPrev (u : MicroOp) (s : State) : (u.late s).nmiPrev = s.nmiPrev := by unfold MicroOp.late; split <;> rfl
@[simp] theorem late_irqSampled (u : MicroOp) (s : State) : (u.late s).irqSampled = s.irqSampled := by unfold MicroOp.late; split <;> rfl
@[simp] theorem late_intNext (u : MicroOp) (s : State) : (u.late s).intNext = s.intNext := by unfold MicroOp.late; split <;> rfl
@[simp] theorem late_busLatch (u : MicroOp) (s : State) : (u.late s).busLatch = s.busLatch := by unfold MicroOp.late; split <;> rfl
@[simp] theorem late_halted (u : MicroOp) (s : State) : (u.late s).halted = s.halted := by unfold MicroOp.late; split <;> rfl
@[simp] theorem late_fault (u : MicroOp) (s : State) : (u.late s).fault = s.fault := by unfold MicroOp.late; split <;> rfl
@[simp] theorem late_runState (u : MicroOp) (s : State) : (u.late s).runState = s.runState := by unfold MicroOp.late; split <;> rfl
@[simp] theorem late_breakpoints (u : MicroOp) (s : State) : (u.late s).breakpoints = s.breakpoints := by unfold MicroOp.late; split <;> rfl
@[simp] theorem late_nextBreakpointId (u : MicroOp) (s : State) : (u.late s).nextBreakpointId = s.nextBreakpointId := by unfold MicroOp.late; split <;> rfl
@[simp] theorem late_pauseRequested (u : MicroOp) (s : State) : (u.late s).pauseRequested = s.pauseRequested := by unfold MicroOp.late; split <;> rfl
@[simp] theorem late_frameSeen (u : MicroOp) (s : State) : (u.late s).frameSeen = s.frameSeen := by unfold MicroOp.late; split <;> rfl
@[simp] theorem late_stopReason (u : MicroOp) (s : State) : (u.late s).stopReason = s.stopReason := by unfold MicroOp.late; split <;> rfl
@[simp] theorem late_ppuAcc (u : MicroOp) (s : State) : (u.late s).ppuAcc = s.ppuAcc := by unfold MicroOp.late; split <;> rfl
@[simp] theorem late_cycles (u : MicroOp) (s : State) : (u.late s).cycles = s.cycles := by unfold MicroOp.late; split <;> rfl
@[simp] theorem late_ppuSteps (u : MicroOp) (s : State) : (u.late s).ppuSteps = s.ppuSteps := by unfold MicroOp.late; split <;> rfl
@[simp] theorem late_ppuLine (u : MicroOp) (s : State) : (u.late s).ppuLine = s.ppuLine := by unfold MicroOp.late; split <;> rfl
@[simp] theorem late_irqAsserting (u : MicroOp) (s : State) : (u.late s).irqAsserting = s.irqAsserting := by unfold MicroOp.late; split <;> rfl
@[simp] theorem late_mem (u : MicroOp) (s : State) : (u.late s).mem = s.mem := by unfold MicroOp.late; split <;> rfl
@[simp] theorem late_profile (u : MicroOp) (s : State) : (u.late s).profile = s.profile := by unfold MicroOp.late; split <;> rfl
@[simp] theorem late_inputs (u : MicroOp) (s : State) : (u.late s).inputs = s.inputs := by unfold MicroOp.late; split <;> rfl
@[simp] theorem late_commands (u : MicroOp) (s : State) : (u.late s).commands = s.commands := by unfold MicroOp.late; split <;> rfl
@[simp] theorem late_portLog (u : MicroOp) (s : State) : (u.late s).portLog = s.portLog := by unfold MicroOp.late; split <;> rfl
@[simp] theorem late_freeIdx (u : MicroOp) (s : State) : (u.late s).freeIdx = s.freeIdx := by unfold MicroOp.late; split <;> rfl

/-! ### One cycle -/

/-- The memory after a cycle: a write cycle's access is the only change. -/
theorem cycle_mem (u : MicroOp) (us : List MicroOp) (supplied : Option Byte) (s : State) :
    (cycle u us supplied s).mem =
      match u.access s with
      | .read _ => s.mem
      | .write a v => memAfterWrite (target s a) v s.mem := by
  unfold cycle
  split
  · next a h => simp [finishCycle, h]
  · next a v h => simp [finishCycle, h]

@[simp] theorem cycle_runState (u : MicroOp) (us : List MicroOp) (supplied : Option Byte) (s : State) :
    (cycle u us supplied s).runState = s.runState := by
  unfold cycle
  split <;> simp [finishCycle]

@[simp] theorem cycle_breakpoints (u : MicroOp) (us : List MicroOp) (supplied : Option Byte) (s : State) :
    (cycle u us supplied s).breakpoints = s.breakpoints := by
  unfold cycle
  split <;> simp [finishCycle]

@[simp] theorem cycle_nextBreakpointId (u : MicroOp) (us : List MicroOp) (supplied : Option Byte) (s : State) :
    (cycle u us supplied s).nextBreakpointId = s.nextBreakpointId := by
  unfold cycle
  split <;> simp [finishCycle]

@[simp] theorem cycle_pauseRequested (u : MicroOp) (us : List MicroOp) (supplied : Option Byte) (s : State) :
    (cycle u us supplied s).pauseRequested = s.pauseRequested := by
  unfold cycle
  split <;> simp [finishCycle]

@[simp] theorem cycle_stopReason (u : MicroOp) (us : List MicroOp) (supplied : Option Byte) (s : State) :
    (cycle u us supplied s).stopReason = s.stopReason := by
  unfold cycle
  split <;> simp [finishCycle]

@[simp] theorem cycle_profile (u : MicroOp) (us : List MicroOp) (supplied : Option Byte) (s : State) :
    (cycle u us supplied s).profile = s.profile := by
  unfold cycle
  split <;> simp [finishCycle]

@[simp] theorem cycle_commands (u : MicroOp) (us : List MicroOp) (supplied : Option Byte) (s : State) :
    (cycle u us supplied s).commands = s.commands := by
  unfold cycle
  split <;> simp [finishCycle]

@[simp] theorem cycle_cycles (u : MicroOp) (us : List MicroOp) (supplied : Option Byte) (s : State) :
    (cycle u us supplied s).cycles = s.cycles + 1 := by
  unfold cycle
  split <;> simp [finishCycle]

@[simp] theorem cycle_ppuAcc (u : MicroOp) (us : List MicroOp) (supplied : Option Byte) (s : State) :
    (cycle u us supplied s).ppuAcc = (s.ppuAcc + s.profile.ratioP) % s.profile.ratioQ := by
  unfold cycle
  split <;> simp [finishCycle]

@[simp] theorem cycle_ppuSteps (u : MicroOp) (us : List MicroOp) (supplied : Option Byte) (s : State) :
    (cycle u us supplied s).ppuSteps = s.ppuSteps + (s.ppuAcc + s.profile.ratioP) / s.profile.ratioQ := by
  unfold cycle
  split <;> simp [finishCycle, ppuStepsNow]

/-- After a cycle with none left to make, the machine is at a boundary; else a micro-operation is queued. -/
theorem cycle_ends (u : MicroOp) (us : List MicroOp) (supplied : Option Byte) (s : State)
    (h : remaining us (cycle u us supplied s) = 0) :
    (cycle u us supplied s).seq = (if (cycle u us supplied s).halted then .halted else .fetch) ∧
      (cycle u us supplied s).queue = [] := by
  have key : ∀ (v : Byte) (r : State), remaining us (finishCycle u us v r) = 0 →
      (finishCycle u us v r).seq = (if (finishCycle u us v r).halted then .halted else .fetch) ∧
        (finishCycle u us v r).queue = [] := by
    intro v r hr
    have hr' : remaining us (u.late (endOfCycle (isPollPoint (remaining us (u.act v r)) (u.act v r)) (u.act v r))) = 0 := by
      have := hr
      unfold finishCycle at this
      simp only [remaining] at this ⊢
      rw [← this]
      congr 1
    constructor
    · show (advance us _).seq = _
      simp only [advance, hr', if_true]
      rfl
    · show (advance us _).queue = _
      simp only [advance]
      have hall := List.filter_eq_nil_iff.mp (List.length_eq_zero_iff.mp hr')
      exact List.dropWhile_eq_nil_iff.mpr fun w hw => by simpa using hall w hw
  unfold cycle at h ⊢
  split at h <;> exact key _ _ h

/-! ### A sequence -/

/-- What every cycle of a sequence keeps, the sequence keeps. -/
theorem runOps_keeps {P : State → Prop} (h : ∀ u us supplied s, P s → P (cycle u us supplied s))
    (ops : List MicroOp) (bytes : List Byte) (s : State) (hs : P s) : P (runOps ops bytes s) := by
  induction ops generalizing bytes s with
  | nil => exact hs
  | cons u us ih =>
    unfold runOps
    split
    · exact ih _ _ hs
    · exact ih _ _ (h _ _ _ _ hs)

@[simp] theorem runOps_runState (ops : List MicroOp) (bytes : List Byte) (s : State) :
    (runOps ops bytes s).runState = s.runState :=
  runOps_keeps (P := fun r => r.runState = s.runState) (fun u us v r h => by rw [cycle_runState, h]) ops bytes s rfl

@[simp] theorem runOps_breakpoints (ops : List MicroOp) (bytes : List Byte) (s : State) :
    (runOps ops bytes s).breakpoints = s.breakpoints :=
  runOps_keeps (P := fun r => r.breakpoints = s.breakpoints) (fun u us v r h => by rw [cycle_breakpoints, h]) ops bytes s rfl

@[simp] theorem runOps_nextBreakpointId (ops : List MicroOp) (bytes : List Byte) (s : State) :
    (runOps ops bytes s).nextBreakpointId = s.nextBreakpointId :=
  runOps_keeps (P := fun r => r.nextBreakpointId = s.nextBreakpointId) (fun u us v r h => by rw [cycle_nextBreakpointId, h]) ops bytes s rfl

@[simp] theorem runOps_pauseRequested (ops : List MicroOp) (bytes : List Byte) (s : State) :
    (runOps ops bytes s).pauseRequested = s.pauseRequested :=
  runOps_keeps (P := fun r => r.pauseRequested = s.pauseRequested) (fun u us v r h => by rw [cycle_pauseRequested, h]) ops bytes s rfl

@[simp] theorem runOps_stopReason (ops : List MicroOp) (bytes : List Byte) (s : State) :
    (runOps ops bytes s).stopReason = s.stopReason :=
  runOps_keeps (P := fun r => r.stopReason = s.stopReason) (fun u us v r h => by rw [cycle_stopReason, h]) ops bytes s rfl

@[simp] theorem runOps_profile (ops : List MicroOp) (bytes : List Byte) (s : State) :
    (runOps ops bytes s).profile = s.profile :=
  runOps_keeps (P := fun r => r.profile = s.profile) (fun u us v r h => by rw [cycle_profile, h]) ops bytes s rfl

@[simp] theorem runOps_commands (ops : List MicroOp) (bytes : List Byte) (s : State) :
    (runOps ops bytes s).commands = s.commands :=
  runOps_keeps (P := fun r => r.commands = s.commands) (fun u us v r h => by rw [cycle_commands, h]) ops bytes s rfl

/-- A sequence of which every cycle is skipped changes nothing. -/
theorem runOps_of_remaining_zero (ops : List MicroOp) (bytes : List Byte) (s : State) (h : remaining ops s = 0) :
    runOps ops bytes s = s := by
  induction ops generalizing bytes with
  | nil => rfl
  | cons u us ih =>
    simp only [remaining, List.length_eq_zero_iff, List.filter_eq_nil_iff] at h
    have hu : u.skipped s = true := by simpa using h u (List.mem_cons_self ..)
    unfold runOps
    rw [if_pos hu]
    apply ih
    simp only [remaining, List.length_eq_zero_iff, List.filter_eq_nil_iff]
    exact fun w hw => h w (List.mem_cons_of_mem _ hw)

/-- A sequence that makes at least one cycle ends at a boundary. -/
theorem runOps_ends (ops : List MicroOp) (bytes : List Byte) (s : State) (h : remaining ops s ≠ 0) :
    (runOps ops bytes s).seq = (if (runOps ops bytes s).halted then .halted else .fetch) ∧
      (runOps ops bytes s).queue = [] := by
  induction ops generalizing bytes s with
  | nil => exact absurd rfl h
  | cons u us ih =>
    unfold runOps
    split
    · next hu =>
      apply ih
      simpa [remaining, hu] using h
    · by_cases hr : remaining us (cycle u us (u.supply bytes) s) = 0
      · rw [runOps_of_remaining_zero _ _ _ hr]
        exact cycle_ends u us _ s hr
      · exact ih _ _ hr

end Sys2Proof.Machine
end

