-- ==== Sys2Proof/Laws/PerInstr.lean ====
section
/-! SUPPORT. Statements for all instructions, one lemma for each constructor. -/

namespace Sys2Proof.Laws

/-- The bytes of a well-formed instruction are its opcode and its operand bytes, as many as its opcode's length says
(R90, R91). -/
def EncodedLength.Statement (i : Instr) : Prop :=
  i.wellFormed = true → encode i = [i.opcode, i.operandLo, i.operandHi].take (opLength i.opcode)

theorem encoded_of_one {i : Instr} {op : Byte} (he : encode i = [op]) (hl : opLength op = 1) :
    EncodedLength.Statement i := by
  intro _
  simp [Instr.opcode, he, hl]

theorem encoded_of_two {i : Instr} {op l : Byte} (he : encode i = [op, l]) (hl : opLength op = 2) :
    EncodedLength.Statement i := by
  intro _
  simp [Instr.opcode, Instr.operandLo, he, hl]

theorem encoded_of_three {i : Instr} {op l h : Byte} (he : encode i = [op, l, h]) (hl : opLength op = 3) :
    EncodedLength.Statement i := by
  intro _
  simp [Instr.opcode, Instr.operandLo, Instr.operandHi, he, hl]

theorem EncodedLength.brk (sig : Byte) : EncodedLength.Statement (.brk sig) :=
  encoded_of_two rfl rfl
theorem EncodedLength.oraIzx (z : Byte) : EncodedLength.Statement (.oraIzx z) :=
  encoded_of_two rfl rfl
theorem EncodedLength.jam (op : Byte) : EncodedLength.Statement (.jam op) :=
  fun hw => encoded_of_one rfl (by
    have h : op ∈ jamOpcodes := of_decide_eq_true hw
    clear hw; revert op; decide) hw
theorem EncodedLength.sloIzx (z : Byte) : EncodedLength.Statement (.sloIzx z) :=
  encoded_of_two rfl rfl
theorem EncodedLength.nopZp (op : Byte) (z : Byte) : EncodedLength.Statement (.nopZp op z) :=
  fun hw => encoded_of_two rfl (by
    have h : op ∈ nopZpOpcodes := of_decide_eq_true hw
    clear hw z; revert op; decide) hw
theorem EncodedLength.oraZp (z : Byte) : EncodedLength.Statement (.oraZp z) :=
  encoded_of_two rfl rfl
theorem EncodedLength.aslZp (z : Byte) : EncodedLength.Statement (.aslZp z) :=
  encoded_of_two rfl rfl
theorem EncodedLength.sloZp (z : Byte) : EncodedLength.Statement (.sloZp z) :=
  encoded_of_two rfl rfl
theorem EncodedLength.php : EncodedLength.Statement .php :=
  encoded_of_one rfl rfl
theorem EncodedLength.oraImm (v : Byte) : EncodedLength.Statement (.oraImm v) :=
  encoded_of_two rfl rfl
theorem EncodedLength.aslAcc : EncodedLength.Statement .aslAcc :=
  encoded_of_one rfl rfl
theorem EncodedLength.ancImm (op : Byte) (v : Byte) : EncodedLength.Statement (.ancImm op v) :=
  fun hw => encoded_of_two rfl (by
    have h : op ∈ ancImmOpcodes := of_decide_eq_true hw
    clear hw v; revert op; decide) hw
theorem EncodedLength.nopAbs (a : Addr) : EncodedLength.Statement (.nopAbs a) :=
  encoded_of_three rfl rfl
theorem EncodedLength.oraAbs (a : Addr) : EncodedLength.Statement (.oraAbs a) :=
  encoded_of_three rfl rfl
theorem EncodedLength.aslAbs (a : Addr) : EncodedLength.Statement (.aslAbs a) :=
  encoded_of_three rfl rfl
theorem EncodedLength.sloAbs (a : Addr) : EncodedLength.Statement (.sloAbs a) :=
  encoded_of_three rfl rfl
theorem EncodedLength.bpl (o : Byte) : EncodedLength.Statement (.bpl o) :=
  encoded_of_two rfl rfl
theorem EncodedLength.oraIzy (z : Byte) : EncodedLength.Statement (.oraIzy z) :=
  encoded_of_two rfl rfl
theorem EncodedLength.sloIzy (z : Byte) : EncodedLength.Statement (.sloIzy z) :=
  encoded_of_two rfl rfl
theorem EncodedLength.nopZpx (op : Byte) (z : Byte) : EncodedLength.Statement (.nopZpx op z) :=
  fun hw => encoded_of_two rfl (by
    have h : op ∈ nopZpxOpcodes := of_decide_eq_true hw
    clear hw z; revert op; decide) hw
theorem EncodedLength.oraZpx (z : Byte) : EncodedLength.Statement (.oraZpx z) :=
  encoded_of_two rfl rfl
theorem EncodedLength.aslZpx (z : Byte) : EncodedLength.Statement (.aslZpx z) :=
  encoded_of_two rfl rfl
theorem EncodedLength.sloZpx (z : Byte) : EncodedLength.Statement (.sloZpx z) :=
  encoded_of_two rfl rfl
theorem EncodedLength.clc : EncodedLength.Statement .clc :=
  encoded_of_one rfl rfl
theorem EncodedLength.oraAby (a : Addr) : EncodedLength.Statement (.oraAby a) :=
  encoded_of_three rfl rfl
theorem EncodedLength.nopImp (op : Byte) : EncodedLength.Statement (.nopImp op) :=
  fun hw => encoded_of_one rfl (by
    have h : op ∈ nopImpOpcodes := of_decide_eq_true hw
    clear hw; revert op; decide) hw
theorem EncodedLength.sloAby (a : Addr) : EncodedLength.Statement (.sloAby a) :=
  encoded_of_three rfl rfl
theorem EncodedLength.nopAbx (op : Byte) (a : Addr) : EncodedLength.Statement (.nopAbx op a) :=
  fun hw => encoded_of_three rfl (by
    have h : op ∈ nopAbxOpcodes := of_decide_eq_true hw
    clear hw a; revert op; decide) hw
theorem EncodedLength.oraAbx (a : Addr) : EncodedLength.Statement (.oraAbx a) :=
  encoded_of_three rfl rfl
theorem EncodedLength.aslAbx (a : Addr) : EncodedLength.Statement (.aslAbx a) :=
  encoded_of_three rfl rfl
theorem EncodedLength.sloAbx (a : Addr) : EncodedLength.Statement (.sloAbx a) :=
  encoded_of_three rfl rfl
theorem EncodedLength.jsr (a : Addr) : EncodedLength.Statement (.jsr a) :=
  encoded_of_three rfl rfl
theorem EncodedLength.andIzx (z : Byte) : EncodedLength.Statement (.andIzx z) :=
  encoded_of_two rfl rfl
theorem EncodedLength.rlaIzx (z : Byte) : EncodedLength.Statement (.rlaIzx z) :=
  encoded_of_two rfl rfl
theorem EncodedLength.bitZp (z : Byte) : EncodedLength.Statement (.bitZp z) :=
  encoded_of_two rfl rfl
theorem EncodedLength.andZp (z : Byte) : EncodedLength.Statement (.andZp z) :=
  encoded_of_two rfl rfl
theorem EncodedLength.rolZp (z : Byte) : EncodedLength.Statement (.rolZp z) :=
  encoded_of_two rfl rfl
theorem EncodedLength.rlaZp (z : Byte) : EncodedLength.Statement (.rlaZp z) :=
  encoded_of_two rfl rfl
theorem EncodedLength.plp : EncodedLength.Statement .plp :=
  encoded_of_one rfl rfl
theorem EncodedLength.andImm (v : Byte) : EncodedLength.Statement (.andImm v) :=
  encoded_of_two rfl rfl
theorem EncodedLength.rolAcc : EncodedLength.Statement .rolAcc :=
  encoded_of_one rfl rfl
theorem EncodedLength.bitAbs (a : Addr) : EncodedLength.Statement (.bitAbs a) :=
  encoded_of_three rfl rfl
theorem EncodedLength.andAbs (a : Addr) : EncodedLength.Statement (.andAbs a) :=
  encoded_of_three rfl rfl
theorem EncodedLength.rolAbs (a : Addr) : EncodedLength.Statement (.rolAbs a) :=
  encoded_of_three rfl rfl
theorem EncodedLength.rlaAbs (a : Addr) : EncodedLength.Statement (.rlaAbs a) :=
  encoded_of_three rfl rfl
theorem EncodedLength.bmi (o : Byte) : EncodedLength.Statement (.bmi o) :=
  encoded_of_two rfl rfl
theorem EncodedLength.andIzy (z : Byte) : EncodedLength.Statement (.andIzy z) :=
  encoded_of_two rfl rfl
theorem EncodedLength.rlaIzy (z : Byte) : EncodedLength.Statement (.rlaIzy z) :=
  encoded_of_two rfl rfl
theorem EncodedLength.andZpx (z : Byte) : EncodedLength.Statement (.andZpx z) :=
  encoded_of_two rfl rfl
theorem EncodedLength.rolZpx (z : Byte) : EncodedLength.Statement (.rolZpx z) :=
  encoded_of_two rfl rfl
theorem EncodedLength.rlaZpx (z : Byte) : EncodedLength.Statement (.rlaZpx z) :=
  encoded_of_two rfl rfl
theorem EncodedLength.sec : EncodedLength.Statement .sec :=
  encoded_of_one rfl rfl
theorem EncodedLength.andAby (a : Addr) : EncodedLength.Statement (.andAby a) :=
  encoded_of_three rfl rfl
theorem EncodedLength.rlaAby (a : Addr) : EncodedLength.Statement (.rlaAby a) :=
  encoded_of_three rfl rfl
theorem EncodedLength.andAbx (a : Addr) : EncodedLength.Statement (.andAbx a) :=
  encoded_of_three rfl rfl
theorem EncodedLength.rolAbx (a : Addr) : EncodedLength.Statement (.rolAbx a) :=
  encoded_of_three rfl rfl
theorem EncodedLength.rlaAbx (a : Addr) : EncodedLength.Statement (.rlaAbx a) :=
  encoded_of_three rfl rfl
theorem EncodedLength.rti : EncodedLength.Statement .rti :=
  encoded_of_one rfl rfl
theorem EncodedLength.eorIzx (z : Byte) : EncodedLength.Statement (.eorIzx z) :=
  encoded_of_two rfl rfl
theorem EncodedLength.sreIzx (z : Byte) : EncodedLength.Statement (.sreIzx z) :=
  encoded_of_two rfl rfl
theorem EncodedLength.eorZp (z : Byte) : EncodedLength.Statement (.eorZp z) :=
  encoded_of_two rfl rfl
theorem EncodedLength.lsrZp (z : Byte) : EncodedLength.Statement (.lsrZp z) :=
  encoded_of_two rfl rfl
theorem EncodedLength.sreZp (z : Byte) : EncodedLength.Statement (.sreZp z) :=
  encoded_of_two rfl rfl
theorem EncodedLength.pha : EncodedLength.Statement .pha :=
  encoded_of_one rfl rfl
theorem EncodedLength.eorImm (v : Byte) : EncodedLength.Statement (.eorImm v) :=
  encoded_of_two rfl rfl
theorem EncodedLength.lsrAcc : EncodedLength.Statement .lsrAcc :=
  encoded_of_one rfl rfl
theorem EncodedLength.alrImm (v : Byte) : EncodedLength.Statement (.alrImm v) :=
  encoded_of_two rfl rfl
theorem EncodedLength.jmpAbs (a : Addr) : EncodedLength.Statement (.jmpAbs a) :=
  encoded_of_three rfl rfl
theorem EncodedLength.eorAbs (a : Addr) : EncodedLength.Statement (.eorAbs a) :=
  encoded_of_three rfl rfl
theorem EncodedLength.lsrAbs (a : Addr) : EncodedLength.Statement (.lsrAbs a) :=
  encoded_of_three rfl rfl
theorem EncodedLength.sreAbs (a : Addr) : EncodedLength.Statement (.sreAbs a) :=
  encoded_of_three rfl rfl
theorem EncodedLength.bvc (o : Byte) : EncodedLength.Statement (.bvc o) :=
  encoded_of_two rfl rfl
theorem EncodedLength.eorIzy (z : Byte) : EncodedLength.Statement (.eorIzy z) :=
  encoded_of_two rfl rfl
theorem EncodedLength.sreIzy (z : Byte) : EncodedLength.Statement (.sreIzy z) :=
  encoded_of_two rfl rfl
theorem EncodedLength.eorZpx (z : Byte) : EncodedLength.Statement (.eorZpx z) :=
  encoded_of_two rfl rfl
theorem EncodedLength.lsrZpx (z : Byte) : EncodedLength.Statement (.lsrZpx z) :=
  encoded_of_two rfl rfl
theorem EncodedLength.sreZpx (z : Byte) : EncodedLength.Statement (.sreZpx z) :=
  encoded_of_two rfl rfl
theorem EncodedLength.cli : EncodedLength.Statement .cli :=
  encoded_of_one rfl rfl
theorem EncodedLength.eorAby (a : Addr) : EncodedLength.Statement (.eorAby a) :=
  encoded_of_three rfl rfl
theorem EncodedLength.sreAby (a : Addr) : EncodedLength.Statement (.sreAby a) :=
  encoded_of_three rfl rfl
theorem EncodedLength.eorAbx (a : Addr) : EncodedLength.Statement (.eorAbx a) :=
  encoded_of_three rfl rfl
theorem EncodedLength.lsrAbx (a : Addr) : EncodedLength.Statement (.lsrAbx a) :=
  encoded_of_three rfl rfl
theorem EncodedLength.sreAbx (a : Addr) : EncodedLength.Statement (.sreAbx a) :=
  encoded_of_three rfl rfl
theorem EncodedLength.rts : EncodedLength.Statement .rts :=
  encoded_of_one rfl rfl
theorem EncodedLength.adcIzx (z : Byte) : EncodedLength.Statement (.adcIzx z) :=
  encoded_of_two rfl rfl
theorem EncodedLength.rraIzx (z : Byte) : EncodedLength.Statement (.rraIzx z) :=
  encoded_of_two rfl rfl
theorem EncodedLength.adcZp (z : Byte) : EncodedLength.Statement (.adcZp z) :=
  encoded_of_two rfl rfl
theorem EncodedLength.rorZp (z : Byte) : EncodedLength.Statement (.rorZp z) :=
  encoded_of_two rfl rfl
theorem EncodedLength.rraZp (z : Byte) : EncodedLength.Statement (.rraZp z) :=
  encoded_of_two rfl rfl
theorem EncodedLength.pla : EncodedLength.Statement .pla :=
  encoded_of_one rfl rfl
theorem EncodedLength.adcImm (v : Byte) : EncodedLength.Statement (.adcImm v) :=
  encoded_of_two rfl rfl
theorem EncodedLength.rorAcc : EncodedLength.Statement .rorAcc :=
  encoded_of_one rfl rfl
theorem EncodedLength.arrImm (v : Byte) : EncodedLength.Statement (.arrImm v) :=
  encoded_of_two rfl rfl
theorem EncodedLength.jmpInd (a : Addr) : EncodedLength.Statement (.jmpInd a) :=
  encoded_of_three rfl rfl
theorem EncodedLength.adcAbs (a : Addr) : EncodedLength.Statement (.adcAbs a) :=
  encoded_of_three rfl rfl
theorem EncodedLength.rorAbs (a : Addr) : EncodedLength.Statement (.rorAbs a) :=
  encoded_of_three rfl rfl
theorem EncodedLength.rraAbs (a : Addr) : EncodedLength.Statement (.rraAbs a) :=
  encoded_of_three rfl rfl
theorem EncodedLength.bvs (o : Byte) : EncodedLength.Statement (.bvs o) :=
  encoded_of_two rfl rfl
theorem EncodedLength.adcIzy (z : Byte) : EncodedLength.Statement (.adcIzy z) :=
  encoded_of_two rfl rfl
theorem EncodedLength.rraIzy (z : Byte) : EncodedLength.Statement (.rraIzy z) :=
  encoded_of_two rfl rfl
theorem EncodedLength.adcZpx (z : Byte) : EncodedLength.Statement (.adcZpx z) :=
  encoded_of_two rfl rfl
theorem EncodedLength.rorZpx (z : Byte) : EncodedLength.Statement (.rorZpx z) :=
  encoded_of_two rfl rfl
theorem EncodedLength.rraZpx (z : Byte) : EncodedLength.Statement (.rraZpx z) :=
  encoded_of_two rfl rfl
theorem EncodedLength.sei : EncodedLength.Statement .sei :=
  encoded_of_one rfl rfl
theorem EncodedLength.adcAby (a : Addr) : EncodedLength.Statement (.adcAby a) :=
  encoded_of_three rfl rfl
theorem EncodedLength.rraAby (a : Addr) : EncodedLength.Statement (.rraAby a) :=
  encoded_of_three rfl rfl
theorem EncodedLength.adcAbx (a : Addr) : EncodedLength.Statement (.adcAbx a) :=
  encoded_of_three rfl rfl
theorem EncodedLength.rorAbx (a : Addr) : EncodedLength.Statement (.rorAbx a) :=
  encoded_of_three rfl rfl
theorem EncodedLength.rraAbx (a : Addr) : EncodedLength.Statement (.rraAbx a) :=
  encoded_of_three rfl rfl
theorem EncodedLength.nopImm (op : Byte) (v : Byte) : EncodedLength.Statement (.nopImm op v) :=
  fun hw => encoded_of_two rfl (by
    have h : op ∈ nopImmOpcodes := of_decide_eq_true hw
    clear hw v; revert op; decide) hw
theorem EncodedLength.staIzx (z : Byte) : EncodedLength.Statement (.staIzx z) :=
  encoded_of_two rfl rfl
theorem EncodedLength.saxIzx (z : Byte) : EncodedLength.Statement (.saxIzx z) :=
  encoded_of_two rfl rfl
theorem EncodedLength.styZp (z : Byte) : EncodedLength.Statement (.styZp z) :=
  encoded_of_two rfl rfl
theorem EncodedLength.staZp (z : Byte) : EncodedLength.Statement (.staZp z) :=
  encoded_of_two rfl rfl
theorem EncodedLength.stxZp (z : Byte) : EncodedLength.Statement (.stxZp z) :=
  encoded_of_two rfl rfl
theorem EncodedLength.saxZp (z : Byte) : EncodedLength.Statement (.saxZp z) :=
  encoded_of_two rfl rfl
theorem EncodedLength.dey : EncodedLength.Statement .dey :=
  encoded_of_one rfl rfl
theorem EncodedLength.txa : EncodedLength.Statement .txa :=
  encoded_of_one rfl rfl
theorem EncodedLength.aneImm (v : Byte) : EncodedLength.Statement (.aneImm v) :=
  encoded_of_two rfl rfl
theorem EncodedLength.styAbs (a : Addr) : EncodedLength.Statement (.styAbs a) :=
  encoded_of_three rfl rfl
theorem EncodedLength.staAbs (a : Addr) : EncodedLength.Statement (.staAbs a) :=
  encoded_of_three rfl rfl
theorem EncodedLength.stxAbs (a : Addr) : EncodedLength.Statement (.stxAbs a) :=
  encoded_of_three rfl rfl
theorem EncodedLength.saxAbs (a : Addr) : EncodedLength.Statement (.saxAbs a) :=
  encoded_of_three rfl rfl
theorem EncodedLength.bcc (o : Byte) : EncodedLength.Statement (.bcc o) :=
  encoded_of_two rfl rfl
theorem EncodedLength.staIzy (z : Byte) : EncodedLength.Statement (.staIzy z) :=
  encoded_of_two rfl rfl
theorem EncodedLength.shaIzy (z : Byte) : EncodedLength.Statement (.shaIzy z) :=
  encoded_of_two rfl rfl
theorem EncodedLength.styZpx (z : Byte) : EncodedLength.Statement (.styZpx z) :=
  encoded_of_two rfl rfl
theorem EncodedLength.staZpx (z : Byte) : EncodedLength.Statement (.staZpx z) :=
  encoded_of_two rfl rfl
theorem EncodedLength.stxZpy (z : Byte) : EncodedLength.Statement (.stxZpy z) :=
  encoded_of_two rfl rfl
theorem EncodedLength.saxZpy (z : Byte) : EncodedLength.Statement (.saxZpy z) :=
  encoded_of_two rfl rfl
theorem EncodedLength.tya : EncodedLength.Statement .tya :=
  encoded_of_one rfl rfl
theorem EncodedLength.staAby (a : Addr) : EncodedLength.Statement (.staAby a) :=
  encoded_of_three rfl rfl
theorem EncodedLength.txs : EncodedLength.Statement .txs :=
  encoded_of_one rfl rfl
theorem EncodedLength.tasAby (a : Addr) : EncodedLength.Statement (.tasAby a) :=
  encoded_of_three rfl rfl
theorem EncodedLength.shyAbx (a : Addr) : EncodedLength.Statement (.shyAbx a) :=
  encoded_of_three rfl rfl
theorem EncodedLength.staAbx (a : Addr) : EncodedLength.Statement (.staAbx a) :=
  encoded_of_three rfl rfl
theorem EncodedLength.shxAby (a : Addr) : EncodedLength.Statement (.shxAby a) :=
  encoded_of_three rfl rfl
theorem EncodedLength.shaAby (a : Addr) : EncodedLength.Statement (.shaAby a) :=
  encoded_of_three rfl rfl
theorem EncodedLength.ldyImm (v : Byte) : EncodedLength.Statement (.ldyImm v) :=
  encoded_of_two rfl rfl
theorem EncodedLength.ldaIzx (z : Byte) : EncodedLength.Statement (.ldaIzx z) :=
  encoded_of_two rfl rfl
theorem EncodedLength.ldxImm (v : Byte) : EncodedLength.Statement (.ldxImm v) :=
  encoded_of_two rfl rfl
theorem EncodedLength.laxIzx (z : Byte) : EncodedLength.Statement (.laxIzx z) :=
  encoded_of_two rfl rfl
theorem EncodedLength.ldyZp (z : Byte) : EncodedLength.Statement (.ldyZp z) :=
  encoded_of_two rfl rfl
theorem EncodedLength.ldaZp (z : Byte) : EncodedLength.Statement (.ldaZp z) :=
  encoded_of_two rfl rfl
theorem EncodedLength.ldxZp (z : Byte) : EncodedLength.Statement (.ldxZp z) :=
  encoded_of_two rfl rfl
theorem EncodedLength.laxZp (z : Byte) : EncodedLength.Statement (.laxZp z) :=
  encoded_of_two rfl rfl
theorem EncodedLength.tay : EncodedLength.Statement .tay :=
  encoded_of_one rfl rfl
theorem EncodedLength.ldaImm (v : Byte) : EncodedLength.Statement (.ldaImm v) :=
  encoded_of_two rfl rfl
theorem EncodedLength.tax : EncodedLength.Statement .tax :=
  encoded_of_one rfl rfl
theorem EncodedLength.lxaImm (v : Byte) : EncodedLength.Statement (.lxaImm v) :=
  encoded_of_two rfl rfl
theorem EncodedLength.ldyAbs (a : Addr) : EncodedLength.Statement (.ldyAbs a) :=
  encoded_of_three rfl rfl
theorem EncodedLength.ldaAbs (a : Addr) : EncodedLength.Statement (.ldaAbs a) :=
  encoded_of_three rfl rfl
theorem EncodedLength.ldxAbs (a : Addr) : EncodedLength.Statement (.ldxAbs a) :=
  encoded_of_three rfl rfl
theorem EncodedLength.laxAbs (a : Addr) : EncodedLength.Statement (.laxAbs a) :=
  encoded_of_three rfl rfl
theorem EncodedLength.bcs (o : Byte) : EncodedLength.Statement (.bcs o) :=
  encoded_of_two rfl rfl
theorem EncodedLength.ldaIzy (z : Byte) : EncodedLength.Statement (.ldaIzy z) :=
  encoded_of_two rfl rfl
theorem EncodedLength.laxIzy (z : Byte) : EncodedLength.Statement (.laxIzy z) :=
  encoded_of_two rfl rfl
theorem EncodedLength.ldyZpx (z : Byte) : EncodedLength.Statement (.ldyZpx z) :=
  encoded_of_two rfl rfl
theorem EncodedLength.ldaZpx (z : Byte) : EncodedLength.Statement (.ldaZpx z) :=
  encoded_of_two rfl rfl
theorem EncodedLength.ldxZpy (z : Byte) : EncodedLength.Statement (.ldxZpy z) :=
  encoded_of_two rfl rfl
theorem EncodedLength.laxZpy (z : Byte) : EncodedLength.Statement (.laxZpy z) :=
  encoded_of_two rfl rfl
theorem EncodedLength.clv : EncodedLength.Statement .clv :=
  encoded_of_one rfl rfl
theorem EncodedLength.ldaAby (a : Addr) : EncodedLength.Statement (.ldaAby a) :=
  encoded_of_three rfl rfl
theorem EncodedLength.tsx : EncodedLength.Statement .tsx :=
  encoded_of_one rfl rfl
theorem EncodedLength.lasAby (a : Addr) : EncodedLength.Statement (.lasAby a) :=
  encoded_of_three rfl rfl
theorem EncodedLength.ldyAbx (a : Addr) : EncodedLength.Statement (.ldyAbx a) :=
  encoded_of_three rfl rfl
theorem EncodedLength.ldaAbx (a : Addr) : EncodedLength.Statement (.ldaAbx a) :=
  encoded_of_three rfl rfl
theorem EncodedLength.ldxAby (a : Addr) : EncodedLength.Statement (.ldxAby a) :=
  encoded_of_three rfl rfl
theorem EncodedLength.laxAby (a : Addr) : EncodedLength.Statement (.laxAby a) :=
  encoded_of_three rfl rfl
theorem EncodedLength.cpyImm (v : Byte) : EncodedLength.Statement (.cpyImm v) :=
  encoded_of_two rfl rfl
theorem EncodedLength.cmpIzx (z : Byte) : EncodedLength.Statement (.cmpIzx z) :=
  encoded_of_two rfl rfl
theorem EncodedLength.dcpIzx (z : Byte) : EncodedLength.Statement (.dcpIzx z) :=
  encoded_of_two rfl rfl
theorem EncodedLength.cpyZp (z : Byte) : EncodedLength.Statement (.cpyZp z) :=
  encoded_of_two rfl rfl
theorem EncodedLength.cmpZp (z : Byte) : EncodedLength.Statement (.cmpZp z) :=
  encoded_of_two rfl rfl
theorem EncodedLength.decZp (z : Byte) : EncodedLength.Statement (.decZp z) :=
  encoded_of_two rfl rfl
theorem EncodedLength.dcpZp (z : Byte) : EncodedLength.Statement (.dcpZp z) :=
  encoded_of_two rfl rfl
theorem EncodedLength.iny : EncodedLength.Statement .iny :=
  encoded_of_one rfl rfl
theorem EncodedLength.cmpImm (v : Byte) : EncodedLength.Statement (.cmpImm v) :=
  encoded_of_two rfl rfl
theorem EncodedLength.dex : EncodedLength.Statement .dex :=
  encoded_of_one rfl rfl
theorem EncodedLength.sbxImm (v : Byte) : EncodedLength.Statement (.sbxImm v) :=
  encoded_of_two rfl rfl
theorem EncodedLength.cpyAbs (a : Addr) : EncodedLength.Statement (.cpyAbs a) :=
  encoded_of_three rfl rfl
theorem EncodedLength.cmpAbs (a : Addr) : EncodedLength.Statement (.cmpAbs a) :=
  encoded_of_three rfl rfl
theorem EncodedLength.decAbs (a : Addr) : EncodedLength.Statement (.decAbs a) :=
  encoded_of_three rfl rfl
theorem EncodedLength.dcpAbs (a : Addr) : EncodedLength.Statement (.dcpAbs a) :=
  encoded_of_three rfl rfl
theorem EncodedLength.bne (o : Byte) : EncodedLength.Statement (.bne o) :=
  encoded_of_two rfl rfl
theorem EncodedLength.cmpIzy (z : Byte) : EncodedLength.Statement (.cmpIzy z) :=
  encoded_of_two rfl rfl
theorem EncodedLength.dcpIzy (z : Byte) : EncodedLength.Statement (.dcpIzy z) :=
  encoded_of_two rfl rfl
theorem EncodedLength.cmpZpx (z : Byte) : EncodedLength.Statement (.cmpZpx z) :=
  encoded_of_two rfl rfl
theorem EncodedLength.decZpx (z : Byte) : EncodedLength.Statement (.decZpx z) :=
  encoded_of_two rfl rfl
theorem EncodedLength.dcpZpx (z : Byte) : EncodedLength.Statement (.dcpZpx z) :=
  encoded_of_two rfl rfl
theorem EncodedLength.cld : EncodedLength.Statement .cld :=
  encoded_of_one rfl rfl
theorem EncodedLength.cmpAby (a : Addr) : EncodedLength.Statement (.cmpAby a) :=
  encoded_of_three rfl rfl
theorem EncodedLength.dcpAby (a : Addr) : EncodedLength.Statement (.dcpAby a) :=
  encoded_of_three rfl rfl
theorem EncodedLength.cmpAbx (a : Addr) : EncodedLength.Statement (.cmpAbx a) :=
  encoded_of_three rfl rfl
theorem EncodedLength.decAbx (a : Addr) : EncodedLength.Statement (.decAbx a) :=
  encoded_of_three rfl rfl
theorem EncodedLength.dcpAbx (a : Addr) : EncodedLength.Statement (.dcpAbx a) :=
  encoded_of_three rfl rfl
theorem EncodedLength.cpxImm (v : Byte) : EncodedLength.Statement (.cpxImm v) :=
  encoded_of_two rfl rfl
theorem EncodedLength.sbcIzx (z : Byte) : EncodedLength.Statement (.sbcIzx z) :=
  encoded_of_two rfl rfl
theorem EncodedLength.iscIzx (z : Byte) : EncodedLength.Statement (.iscIzx z) :=
  encoded_of_two rfl rfl
theorem EncodedLength.cpxZp (z : Byte) : EncodedLength.Statement (.cpxZp z) :=
  encoded_of_two rfl rfl
theorem EncodedLength.sbcZp (z : Byte) : EncodedLength.Statement (.sbcZp z) :=
  encoded_of_two rfl rfl
theorem EncodedLength.incZp (z : Byte) : EncodedLength.Statement (.incZp z) :=
  encoded_of_two rfl rfl
theorem EncodedLength.iscZp (z : Byte) : EncodedLength.Statement (.iscZp z) :=
  encoded_of_two rfl rfl
theorem EncodedLength.inx : EncodedLength.Statement .inx :=
  encoded_of_one rfl rfl
theorem EncodedLength.sbcImm (v : Byte) : EncodedLength.Statement (.sbcImm v) :=
  encoded_of_two rfl rfl
theorem EncodedLength.nop : EncodedLength.Statement .nop :=
  encoded_of_one rfl rfl
theorem EncodedLength.usbcImm (v : Byte) : EncodedLength.Statement (.usbcImm v) :=
  encoded_of_two rfl rfl
theorem EncodedLength.cpxAbs (a : Addr) : EncodedLength.Statement (.cpxAbs a) :=
  encoded_of_three rfl rfl
theorem EncodedLength.sbcAbs (a : Addr) : EncodedLength.Statement (.sbcAbs a) :=
  encoded_of_three rfl rfl
theorem EncodedLength.incAbs (a : Addr) : EncodedLength.Statement (.incAbs a) :=
  encoded_of_three rfl rfl
theorem EncodedLength.iscAbs (a : Addr) : EncodedLength.Statement (.iscAbs a) :=
  encoded_of_three rfl rfl
theorem EncodedLength.beq (o : Byte) : EncodedLength.Statement (.beq o) :=
  encoded_of_two rfl rfl
theorem EncodedLength.sbcIzy (z : Byte) : EncodedLength.Statement (.sbcIzy z) :=
  encoded_of_two rfl rfl
theorem EncodedLength.iscIzy (z : Byte) : EncodedLength.Statement (.iscIzy z) :=
  encoded_of_two rfl rfl
theorem EncodedLength.sbcZpx (z : Byte) : EncodedLength.Statement (.sbcZpx z) :=
  encoded_of_two rfl rfl
theorem EncodedLength.incZpx (z : Byte) : EncodedLength.Statement (.incZpx z) :=
  encoded_of_two rfl rfl
theorem EncodedLength.iscZpx (z : Byte) : EncodedLength.Statement (.iscZpx z) :=
  encoded_of_two rfl rfl
theorem EncodedLength.sed : EncodedLength.Statement .sed :=
  encoded_of_one rfl rfl
theorem EncodedLength.sbcAby (a : Addr) : EncodedLength.Statement (.sbcAby a) :=
  encoded_of_three rfl rfl
theorem EncodedLength.iscAby (a : Addr) : EncodedLength.Statement (.iscAby a) :=
  encoded_of_three rfl rfl
theorem EncodedLength.sbcAbx (a : Addr) : EncodedLength.Statement (.sbcAbx a) :=
  encoded_of_three rfl rfl
theorem EncodedLength.incAbx (a : Addr) : EncodedLength.Statement (.incAbx a) :=
  encoded_of_three rfl rfl
theorem EncodedLength.iscAbx (a : Addr) : EncodedLength.Statement (.iscAbx a) :=
  encoded_of_three rfl rfl

end Sys2Proof.Laws
end

