-- ==== Sys2Proof/Laws/Exec.lean ====
section
/-! SUPPORT. What exec answers: the sequence of the opcode, on the bytes of the instruction. Claims about instructions go
through `exec_eq` and never unfold a meaning. -/

namespace Sys2Proof.Machine

theorem runIllegal_eq (ops : List MicroOp) (op : Byte) (rest : List Byte) (s : State)
    (h : illegal op = true ∧ emulatedSequence op = ops) :
    runIllegal ops (op :: rest) s = .next (runOps (sequenceOf s.profile.policy op) (op :: rest) (startInstr s)) := by
  unfold runIllegal sequenceOf runInstr
  rw [h.1, h.2]
  cases s.profile.policy <;> rfl

theorem runInstr_eq (ops : List MicroOp) (op : Byte) (rest : List Byte) (s : State)
    (h : illegal op = false ∧ emulatedSequence op = ops) :
    runInstr ops (op :: rest) s = .next (runOps (sequenceOf s.profile.policy op) (op :: rest) (startInstr s)) := by
  unfold sequenceOf runInstr
  rw [h.1, h.2]; rfl

/-- EXEC IS THE OPCODE'S SEQUENCE (R96, R121, R321, R322): every meaning runs the cycles that `step_cycle()` selects by the
opcode, on the instruction's own bytes. -/
theorem exec_eq (i : Instr) (s : State) (hw : i.wellFormed = true) :
    exec i s = .next (runOps (sequenceOf s.profile.policy i.opcode) (encode i) (startInstr s)) := by
  cases i
  case jam op =>
    refine runIllegal_eq _ _ _ _ ?_
    have h : op ∈ jamOpcodes := of_decide_eq_true hw
    clear hw; revert op; decide
  case nopZp op z =>
    refine runIllegal_eq _ _ _ _ (?_ : illegal op = true ∧ emulatedSequence op = _)
    have h : op ∈ nopZpOpcodes := of_decide_eq_true hw
    clear hw z; revert op; decide
  case ancImm op v =>
    refine runIllegal_eq _ _ _ _ (?_ : illegal op = true ∧ emulatedSequence op = _)
    have h : op ∈ ancImmOpcodes := of_decide_eq_true hw
    clear hw v; revert op; decide
  case nopZpx op z =>
    refine runIllegal_eq _ _ _ _ (?_ : illegal op = true ∧ emulatedSequence op = _)
    have h : op ∈ nopZpxOpcodes := of_decide_eq_true hw
    clear hw z; revert op; decide
  case nopImp op =>
    refine runIllegal_eq _ _ _ _ ?_
    have h : op ∈ nopImpOpcodes := of_decide_eq_true hw
    clear hw; revert op; decide
  case nopAbx op a =>
    refine runIllegal_eq _ _ _ _ (?_ : illegal op = true ∧ emulatedSequence op = _)
    have h : op ∈ nopAbxOpcodes := of_decide_eq_true hw
    clear hw a; revert op; decide
  case nopImm op v =>
    refine runIllegal_eq _ _ _ _ (?_ : illegal op = true ∧ emulatedSequence op = _)
    have h : op ∈ nopImmOpcodes := of_decide_eq_true hw
    clear hw v; revert op; decide
  all_goals first
    | exact runInstr_eq _ _ _ _ ⟨rfl, rfl⟩
    | exact runIllegal_eq _ _ _ _ ⟨rfl, rfl⟩

/-- The bytes of a well-formed instruction. -/
theorem encode_eq (i : Instr) (hw : i.wellFormed = true) :
    encode i = [i.opcode, i.operandLo, i.operandHi].take (opLength i.opcode) := by
  have h : Laws.EncodedLength.Statement i := by
    cases i
    case jam => exact Laws.EncodedLength.jam _
    case nopZp => exact Laws.EncodedLength.nopZp _ _
    case ancImm => exact Laws.EncodedLength.ancImm _ _
    case nopZpx => exact Laws.EncodedLength.nopZpx _ _
    case nopImp => exact Laws.EncodedLength.nopImp _
    case nopAbx => exact Laws.EncodedLength.nopAbx _ _
    case nopImm => exact Laws.EncodedLength.nopImm _ _
    all_goals first
      | exact Laws.encoded_of_two rfl rfl
      | exact Laws.encoded_of_three rfl rfl
      | exact Laws.encoded_of_one rfl rfl
  exact h hw

end Sys2Proof.Machine
end

