-- ==== Sys2Proof/Laws/Fields.lean ====
section
/-! SUPPORT. One cycle field by field: its bus access leaves the registers, its register actions are those of its
micro-operation, and the end of the cycle leaves both. A cycle of a known micro-operation is computed by these lemmas
without unfolding `cycle`. -/

namespace Sys2Proof.Machine

/-- The byte a cycle's access delivers or writes. -/
def delivered (u : MicroOp) (supplied : Option Byte) (s : State) : Byte :=
  match u.access s with
  | .read a => supplied.getD (busValue a s)
  | .write _ v => v

/-- The state after a cycle's access. -/
def accessed (u : MicroOp) (supplied : Option Byte) (s : State) : State :=
  match u.access s with
  | .read a => busRead a (supplied.getD (busValue a s)) s
  | .write a v => busWrite a v s

/-- A cycle is its access, then the rest. -/
theorem cycle_eq (u : MicroOp) (us : List MicroOp) (supplied : Option Byte) (s : State) :
    cycle u us supplied s = finishCycle u us (delivered u supplied s) (accessed u supplied s) := by
  unfold cycle delivered accessed
  cases u.access s <;> rfl

/-! ### The access -/

@[simp] theorem accessed_a (u : MicroOp) (supplied : Option Byte) (s : State) :
    (accessed u supplied s).a = s.a := by unfold accessed; split <;> rfl
@[simp] theorem accessed_x (u : MicroOp) (supplied : Option Byte) (s : State) :
    (accessed u supplied s).x = s.x := by unfold accessed; split <;> rfl
@[simp] theorem accessed_y (u : MicroOp) (supplied : Option Byte) (s : State) :
    (accessed u supplied s).y = s.y := by unfold accessed; split <;> rfl
@[simp] theorem accessed_sp (u : MicroOp) (supplied : Option Byte) (s : State) :
    (accessed u supplied s).sp = s.sp := by unfold accessed; split <;> rfl
@[simp] theorem accessed_pc (u : MicroOp) (supplied : Option Byte) (s : State) :
    (accessed u supplied s).pc = s.pc := by unfold accessed; split <;> rfl
@[simp] theorem accessed_fN (u : MicroOp) (supplied : Option Byte) (s : State) :
    (accessed u supplied s).fN = s.fN := by unfold accessed; split <;> rfl
@[simp] theorem accessed_fV (u : MicroOp) (supplied : Option Byte) (s : State) :
    (accessed u supplied s).fV = s.fV := by unfold accessed; split <;> rfl
@[simp] theorem accessed_fD (u : MicroOp) (supplied : Option Byte) (s : State) :
    (accessed u supplied s).fD = s.fD := by unfold accessed; split <;> rfl
@[simp] theorem accessed_fI (u : MicroOp) (supplied : Option Byte) (s : State) :
    (accessed u supplied s).fI = s.fI := by unfold accessed; split <;> rfl
@[simp] theorem accessed_fZ (u : MicroOp) (supplied : Option Byte) (s : State) :
    (accessed u supplied s).fZ = s.fZ := by unfold accessed; split <;> rfl
@[simp] theorem accessed_fC (u : MicroOp) (supplied : Option Byte) (s : State) :
    (accessed u supplied s).fC = s.fC := by unfold accessed; split <;> rfl
@[simp] theorem accessed_seq (u : MicroOp) (supplied : Option Byte) (s : State) :
    (accessed u supplied s).seq = s.seq := by unfold accessed; split <;> rfl
@[simp] theorem accessed_ir (u : MicroOp) (supplied : Option Byte) (s : State) :
    (accessed u supplied s).ir = s.ir := by unfold accessed; split <;> rfl
@[simp] theorem accessed_t (u : MicroOp) (supplied : Option Byte) (s : State) :
    (accessed u supplied s).t = s.t := by unfold accessed; split <;> rfl
@[simp] theorem accessed_ad (u : MicroOp) (supplied : Option Byte) (s : State) :
    (accessed u supplied s).ad = s.ad := by unfold accessed; split <;> rfl
@[simp] theorem accessed_dl (u : MicroOp) (supplied : Option Byte) (s : State) :
    (accessed u supplied s).dl = s.dl := by unfold accessed; split <;> rfl
@[simp] theorem accessed_crossed (u : MicroOp) (supplied : Option Byte) (s : State) :
    (accessed u supplied s).crossed = s.crossed := by unfold accessed; split <;> rfl
@[simp] theorem accessed_vec (u : MicroOp) (supplied : Option Byte) (s : State) :
    (accessed u supplied s).vec = s.vec := by unfold accessed; split <;> rfl
@[simp] theorem accessed_bflag (u : MicroOp) (supplied : Option Byte) (s : State) :
    (accessed u supplied s).bflag = s.bflag := by unfold accessed; split <;> rfl
@[simp] theorem accessed_queue (u : MicroOp) (supplied : Option Byte) (s : State) :
    (accessed u supplied s).queue = s.queue := by unfold accessed; split <;> rfl
@[simp] theorem accessed_nmiPrev (u : MicroOp) (supplied : Option Byte) (s : State) :
    (accessed u supplied s).nmiPrev = s.nmiPrev := by unfold accessed; split <;> rfl
@[simp] theorem accessed_nmiPending (u : MicroOp) (supplied : Option Byte) (s : State) :
    (accessed u supplied s).nmiPending = s.nmiPending := by unfold accessed; split <;> rfl
@[simp] theorem accessed_irqSampled (u : MicroOp) (supplied : Option Byte) (s : State) :
    (accessed u supplied s).irqSampled = s.irqSampled := by unfold accessed; split <;> rfl
@[simp] theorem accessed_intNext (u : MicroOp) (supplied : Option Byte) (s : State) :
    (accessed u supplied s).intNext = s.intNext := by unfold accessed; split <;> rfl
@[simp] theorem accessed_halted (u : MicroOp) (supplied : Option Byte) (s : State) :
    (accessed u supplied s).halted = s.halted := by unfold accessed; split <;> rfl
@[simp] theorem accessed_runState (u : MicroOp) (supplied : Option Byte) (s : State) :
    (accessed u supplied s).runState = s.runState := by unfold accessed; split <;> rfl
@[simp] theorem accessed_breakpoints (u : MicroOp) (supplied : Option Byte) (s : State) :
    (accessed u supplied s).breakpoints = s.breakpoints := by unfold accessed; split <;> rfl
@[simp] theorem accessed_nextBreakpointId (u : MicroOp) (supplied : Option Byte) (s : State) :
    (accessed u supplied s).nextBreakpointId = s.nextBreakpointId := by unfold accessed; split <;> rfl
@[simp] theorem accessed_pauseRequested (u : MicroOp) (supplied : Option Byte) (s : State) :
    (accessed u supplied s).pauseRequested = s.pauseRequested := by unfold accessed; split <;> rfl
@[simp] theorem accessed_frameSeen (u : MicroOp) (supplied : Option Byte) (s : State) :
    (accessed u supplied s).frameSeen = s.frameSeen := by unfold accessed; split <;> rfl
@[simp] theorem accessed_stopReason (u : MicroOp) (supplied : Option Byte) (s : State) :
    (accessed u supplied s).stopReason = s.stopReason := by unfold accessed; split <;> rfl
@[simp] theorem accessed_ppuAcc (u : MicroOp) (supplied : Option Byte) (s : State) :
    (accessed u supplied s).ppuAcc = s.ppuAcc := by unfold accessed; split <;> rfl
@[simp] theorem accessed_cycles (u : MicroOp) (supplied : Option Byte) (s : State) :
    (accessed u supplied s).cycles = s.cycles := by unfold accessed; split <;> rfl
@[simp] theorem accessed_ppuSteps (u : MicroOp) (supplied : Option Byte) (s : State) :
    (accessed u supplied s).ppuSteps = s.ppuSteps := by unfold accessed; split <;> rfl
@[simp] theorem accessed_ppuLine (u : MicroOp) (supplied : Option Byte) (s : State) :
    (accessed u supplied s).ppuLine = s.ppuLine := by unfold accessed; split <;> rfl
@[simp] theorem accessed_irqAsserting (u : MicroOp) (supplied : Option Byte) (s : State) :
    (accessed u supplied s).irqAsserting = s.irqAsserting := by unfold accessed; split <;> rfl
@[simp] theorem accessed_profile (u : MicroOp) (supplied : Option Byte) (s : State) :
    (accessed u supplied s).profile = s.profile := by unfold accessed; split <;> rfl
@[simp] theorem accessed_inputs (u : MicroOp) (supplied : Option Byte) (s : State) :
    (accessed u supplied s).inputs = s.inputs := by unfold accessed; split <;> rfl
@[simp] theorem accessed_commands (u : MicroOp) (supplied : Option Byte) (s : State) :
    (accessed u supplied s).commands = s.commands := by unfold accessed; split <;> rfl

@[simp] theorem accessed_busLatch (u : MicroOp) (supplied : Option Byte) (s : State) :
    (accessed u supplied s).busLatch = delivered u supplied s := by
  unfold accessed delivered; cases u.access s <;> rfl

/-! ### The cycle -/

theorem cycle_a (u : MicroOp) (us : List MicroOp) (supplied : Option Byte) (s : State) :
    (cycle u us supplied s).a = (u.act (delivered u supplied s) (accessed u supplied s)).a := by
  rw [cycle_eq]; simp [finishCycle]
theorem cycle_x (u : MicroOp) (us : List MicroOp) (supplied : Option Byte) (s : State) :
    (cycle u us supplied s).x = (u.act (delivered u supplied s) (accessed u supplied s)).x := by
  rw [cycle_eq]; simp [finishCycle]
theorem cycle_y (u : MicroOp) (us : List MicroOp) (supplied : Option Byte) (s : State) :
    (cycle u us supplied s).y = (u.act (delivered u supplied s) (accessed u supplied s)).y := by
  rw [cycle_eq]; simp [finishCycle]
theorem cycle_sp (u : MicroOp) (us : List MicroOp) (supplied : Option Byte) (s : State) :
    (cycle u us supplied s).sp = (u.act (delivered u supplied s) (accessed u supplied s)).sp := by
  rw [cycle_eq]; simp [finishCycle]
theorem cycle_pc (u : MicroOp) (us : List MicroOp) (supplied : Option Byte) (s : State) :
    (cycle u us supplied s).pc = (u.act (delivered u supplied s) (accessed u supplied s)).pc := by
  rw [cycle_eq]; simp [finishCycle]
theorem cycle_fN (u : MicroOp) (us : List MicroOp) (supplied : Option Byte) (s : State) :
    (cycle u us supplied s).fN = (u.act (delivered u supplied s) (accessed u supplied s)).fN := by
  rw [cycle_eq]; simp [finishCycle]
theorem cycle_fV (u : MicroOp) (us : List MicroOp) (supplied : Option Byte) (s : State) :
    (cycle u us supplied s).fV = (u.act (delivered u supplied s) (accessed u supplied s)).fV := by
  rw [cycle_eq]; simp [finishCycle]
theorem cycle_fD (u : MicroOp) (us : List MicroOp) (supplied : Option Byte) (s : State) :
    (cycle u us supplied s).fD = (u.act (delivered u supplied s) (accessed u supplied s)).fD := by
  rw [cycle_eq]; simp [finishCycle]
theorem cycle_fI (u : MicroOp) (us : List MicroOp) (supplied : Option Byte) (s : State) :
    (cycle u us supplied s).fI = (u.act (delivered u supplied s) (accessed u supplied s)).fI := by
  rw [cycle_eq]; simp [finishCycle]
theorem cycle_fZ (u : MicroOp) (us : List MicroOp) (supplied : Option Byte) (s : State) :
    (cycle u us supplied s).fZ = (u.act (delivered u supplied s) (accessed u supplied s)).fZ := by
  rw [cycle_eq]; simp [finishCycle]
theorem cycle_fC (u : MicroOp) (us : List MicroOp) (supplied : Option Byte) (s : State) :
    (cycle u us supplied s).fC = (u.act (delivered u supplied s) (accessed u supplied s)).fC := by
  rw [cycle_eq]; simp [finishCycle]
theorem cycle_ir (u : MicroOp) (us : List MicroOp) (supplied : Option Byte) (s : State) :
    (cycle u us supplied s).ir = (u.act (delivered u supplied s) (accessed u supplied s)).ir := by
  rw [cycle_eq]; simp [finishCycle]
theorem cycle_ad (u : MicroOp) (us : List MicroOp) (supplied : Option Byte) (s : State) :
    (cycle u us supplied s).ad = (u.act (delivered u supplied s) (accessed u supplied s)).ad := by
  rw [cycle_eq]; simp [finishCycle]
theorem cycle_dl (u : MicroOp) (us : List MicroOp) (supplied : Option Byte) (s : State) :
    (cycle u us supplied s).dl = (u.act (delivered u supplied s) (accessed u supplied s)).dl := by
  rw [cycle_eq]; simp [finishCycle]
theorem cycle_crossed (u : MicroOp) (us : List MicroOp) (supplied : Option Byte) (s : State) :
    (cycle u us supplied s).crossed = (u.act (delivered u supplied s) (accessed u supplied s)).crossed := by
  rw [cycle_eq]; simp [finishCycle]
theorem cycle_bflag (u : MicroOp) (us : List MicroOp) (supplied : Option Byte) (s : State) :
    (cycle u us supplied s).bflag = (u.act (delivered u supplied s) (accessed u supplied s)).bflag := by
  rw [cycle_eq]; simp [finishCycle]
theorem cycle_halted (u : MicroOp) (us : List MicroOp) (supplied : Option Byte) (s : State) :
    (cycle u us supplied s).halted = (u.act (delivered u supplied s) (accessed u supplied s)).halted := by
  rw [cycle_eq]; simp [finishCycle]
theorem cycle_busLatch (u : MicroOp) (us : List MicroOp) (supplied : Option Byte) (s : State) :
    (cycle u us supplied s).busLatch = (u.act (delivered u supplied s) (accessed u supplied s)).busLatch := by
  rw [cycle_eq]; simp [finishCycle]
theorem cycle_freeIdx (u : MicroOp) (us : List MicroOp) (supplied : Option Byte) (s : State) :
    (cycle u us supplied s).freeIdx = (u.act (delivered u supplied s) (accessed u supplied s)).freeIdx := by
  rw [cycle_eq]; simp [finishCycle]
theorem cycle_fault (u : MicroOp) (us : List MicroOp) (supplied : Option Byte) (s : State) :
    (cycle u us supplied s).fault = (u.act (delivered u supplied s) (accessed u supplied s)).fault := by
  rw [cycle_eq]; simp [finishCycle]
theorem cycle_portLog (u : MicroOp) (us : List MicroOp) (supplied : Option Byte) (s : State) :
    (cycle u us supplied s).portLog = (u.act (delivered u supplied s) (accessed u supplied s)).portLog := by
  rw [cycle_eq]; simp [finishCycle]

end Sys2Proof.Machine
end

