-- ==== Sys2Proof/Laws/Shapes.lean ====
section
/-! SUPPORT. What the cycles that fetch and address do, once for each addressing mode: the registers, flags and memory stay,
PC and the clock count on, AD is the effective address. Claims about an instruction need only its last cycles. -/

namespace Sys2Proof.Machine

/-! ### Faults -/

theorem resolve_kind {map : List Region} (h : ∀ r ∈ map, r.kind ≠ .outOfRange) (a : Addr) :
    (resolve map a).kind ≠ .outOfRange := by
  unfold resolve
  split
  · next r hr => exact h r (List.mem_of_find?_eq_some hr)
  · simp

/-- Where no entry of the map is out of range, no access records a fault (R375). -/
theorem faultAfter_eq {s : State} (h : s.noBusFault) (a : Addr) : faultAfter a s = s.fault := by
  have hk : (target s a).kind ≠ .outOfRange := resolve_kind h a
  unfold faultAfter
  split <;> simp_all

theorem accessed_fault {s : State} (h : s.noBusFault) (u : MicroOp) (supplied : Option Byte) :
    (accessed u supplied s).fault = s.fault := by
  unfold accessed
  split <;> exact faultAfter_eq h _

/-! ### What address cycles keep -/

/-- What the cycles that only fetch and address keep. -/
structure Same (s w : State) : Prop where
  a : w.a = s.a
  x : w.x = s.x
  y : w.y = s.y
  sp : w.sp = s.sp
  fN : w.fN = s.fN
  fV : w.fV = s.fV
  fD : w.fD = s.fD
  fI : w.fI = s.fI
  fZ : w.fZ = s.fZ
  fC : w.fC = s.fC
  mem : w.mem = s.mem
  profile : w.profile = s.profile
  halted : w.halted = s.halted
  fault : s.noBusFault → w.fault = s.fault

/-- The cycle only fetches or addresses. -/
def MicroOp.quiet (u : MicroOp) : Bool :=
  match u with
  | .opcode | .argLo | .argHi | .argHiIdx _ | .argOff | .argSig | .dummyPC | .idxZp _ | .readDL | .ptrHi | .ptrHiY
  | .fixRead | .fixWrite | .stackDummy => true
  | .opcodeJam | .opcodeTrap | .imm _ | .argJump | .implied _ | .ptrJump | .read _ | .writeBack | .modify _ | .write _
  | .writeUnstable _ | .branchTake _ | .branchFix _ | .stackInc | .pushA | .pushPB | .pushHi | .pushLo | .pushLoVec
  | .pushP | .pullA | .pullP | .pullPInc | .pullLo | .pullHi | .incPC | .entryStart | .vecLo | .vecHi
  | .stackDec => false

theorem Same.start (s : State) : Same s (startInstr s) := by constructor <;> intros <;> rfl

theorem Same.noBusFault {s w : State} (h : Same s w) (hs : s.noBusFault) : w.noBusFault := by
  unfold State.noBusFault
  rw [h.profile]
  exact hs

theorem Same.trans {s w r : State} (h : Same s w) (k : Same w r) : Same s r where
  a := k.a.trans h.a
  x := k.x.trans h.x
  y := k.y.trans h.y
  sp := k.sp.trans h.sp
  fN := k.fN.trans h.fN
  fV := k.fV.trans h.fV
  fD := k.fD.trans h.fD
  fI := k.fI.trans h.fI
  fZ := k.fZ.trans h.fZ
  fC := k.fC.trans h.fC
  mem := k.mem.trans h.mem
  profile := k.profile.trans h.profile
  halted := k.halted.trans h.halted
  fault := fun hs => (k.fault (h.noBusFault hs)).trans (h.fault hs)

/-- A quiet cycle keeps them. -/
theorem quiet_same {u : MicroOp} (h : u.quiet = true) (us : List MicroOp) (v : Option Byte) (s : State) :
    Same s (cycle u us v s) := by
  constructor <;> (try intro hs) <;> (try rw [cycle_mem]) <;>
    cases u <;> first
      | (cases h; done)
      | simp [cycle_a, cycle_x, cycle_y, cycle_sp, cycle_fN, cycle_fV, cycle_fD, cycle_fI, cycle_fZ, cycle_fC,
          cycle_halted, cycle_fault, MicroOp.act, MicroOp.access, *, accessed_fault]

theorem Same.target {s w : State} (h : Same s w) (a : Addr) : target w a = target s a := by
  unfold Machine.target
  rw [h.profile]

theorem Same.stored {s w : State} (h : Same s w) : w.stored = s.stored := by
  funext a
  simp [State.stored, h.target, h.mem]

theorem Same.view {s w : State} (h : Same s w) : w.view = s.view := by
  simp [State.view, h.a, h.x, h.y, h.sp, h.fN, h.fV, h.fD, h.fI, h.fZ, h.fC, h.stored]

/-- A stored byte is what a read delivers. -/
theorem busValue_of_stored {s : State} {a : Addr} {v : Byte} (hv : s.stored a = some v) : busValue a s = v := by
  unfold State.stored at hv
  unfold busValue
  split at hv <;> simp_all

theorem Same.busValue {s w : State} (h : Same s w) {a : Addr} {v : Byte} (hv : s.stored a = some v) :
    busValue a w = v :=
  busValue_of_stored (by rw [h.stored]; exact hv)

/-! ### The address cycles of each mode -/

/-- The state after the address cycles: what they keep, PC past `n` bytes, `k` cycles run, AD at `ea`, and the newest
register-hook calls `D`. -/
structure At (s w : State) (n k : Nat) (ea : Addr) (D : List PortEvent) : Prop where
  same : Same s w
  pc : w.pc = s.pc + BitVec.ofNat 16 n
  cycles : w.cycles = s.cycles + k
  ad : w.ad = ea
  log : ∃ rest, w.portLog = D ++ rest

@[simp] theorem lo_zeroPage (z : Byte) : lo (zeroPage z) = z := lo_join _ _
@[simp] theorem nextInPage_zeroPage (z : Byte) : nextInPage (zeroPage z) = zeroPage (z + 1) := by simp [nextInPage, zeroPage]
theorem pc2 (p : Addr) : p + 1#16 + 1#16 = p + 2#16 := by bv_omega
theorem pc3 (p : Addr) : p + 1#16 + 1#16 + 1#16 = p + 3#16 := by bv_omega

/-- Zero page (R126). -/
theorem at_zp (o z : Byte) (rest : List MicroOp) (s : State) :
    ∃ w, runOps ([.opcode, .argLo] ++ rest) [o, z] (startInstr s) = runOps rest [] w ∧ At s w 2 2 (zeroPage z) [] := by
  refine ⟨_, by simp [runOps, MicroOp.skipped, MicroOp.rest, MicroOp.supply, MicroOp.fetches]; rfl, ?_, ?_, ?_, ?_, ?_⟩
  · exact ((Same.start s).trans (quiet_same rfl _ _ _)).trans (quiet_same rfl _ _ _)
  · simp [cycle_pc, MicroOp.act, startInstr, pc2]
  · simp [startInstr]
  · simp [cycle_ad, MicroOp.act, delivered, MicroOp.access]
  · exact ⟨_, rfl⟩

/-- Zero page,X and zero page,Y (R129). -/
theorem at_zpIdx (r : Index) (o z : Byte) (rest : List MicroOp) (s : State) :
    ∃ w, runOps ([.opcode, .argLo, .idxZp r] ++ rest) [o, z] (startInstr s) = runOps rest [] w ∧
      At s w 2 3 (zeroPage (z + r.value s)) [] := by
  refine ⟨_, by simp [runOps, MicroOp.skipped, MicroOp.rest, MicroOp.supply, MicroOp.fetches]; rfl, ?_, ?_, ?_, ?_, ?_⟩
  · exact (((Same.start s).trans (quiet_same rfl _ _ _)).trans (quiet_same rfl _ _ _)).trans (quiet_same rfl _ _ _)
  · simp [cycle_pc, MicroOp.act, startInstr, pc2]
  · simp [startInstr]
  · cases r <;> simp [cycle_ad, cycle_x, cycle_y, MicroOp.act, delivered, MicroOp.access, Index.value, startInstr]
  · exact ⟨_, rfl⟩

/-- Absolute (R132). -/
theorem at_abs (o l h : Byte) (rest : List MicroOp) (s : State) :
    ∃ w, runOps ([.opcode, .argLo, .argHi] ++ rest) [o, l, h] (startInstr s) = runOps rest [] w ∧
      At s w 3 3 (join h l) [] := by
  refine ⟨_, by simp [runOps, MicroOp.skipped, MicroOp.rest, MicroOp.supply, MicroOp.fetches]; rfl, ?_, ?_, ?_, ?_, ?_⟩
  · exact (((Same.start s).trans (quiet_same rfl _ _ _)).trans (quiet_same rfl _ _ _)).trans (quiet_same rfl _ _ _)
  · simp [cycle_pc, MicroOp.act, startInstr, pc3]
  · simp [startInstr]
  · simp [cycle_ad, MicroOp.act, delivered, MicroOp.access]
  · exact ⟨_, rfl⟩

/-- Absolute,X and absolute,Y before the fixing cycle (R135). -/
theorem at_idx (r : Index) (o l h : Byte) (rest : List MicroOp) (s : State) :
    ∃ w, runOps ([.opcode, .argLo, .argHiIdx r] ++ rest) [o, l, h] (startInstr s) = runOps rest [] w ∧
      At s w 3 3 (join h (l + r.value s)) [] ∧ w.crossed = carries l (r.value s) ∧ w.dl = h := by
  refine ⟨_, by simp [runOps, MicroOp.skipped, MicroOp.rest, MicroOp.supply, MicroOp.fetches]; rfl, ⟨?_, ?_, ?_, ?_, ?_⟩, ?_, ?_⟩
  · exact (((Same.start s).trans (quiet_same rfl _ _ _)).trans (quiet_same rfl _ _ _)).trans (quiet_same rfl _ _ _)
  · simp [cycle_pc, MicroOp.act, startInstr, pc3]
  · simp [startInstr]
  · cases r <;> simp [cycle_ad, cycle_x, cycle_y, MicroOp.act, delivered, MicroOp.access, Index.value, startInstr]
  · exact ⟨_, rfl⟩
  · cases r <;> simp [cycle_ad, cycle_x, cycle_y, cycle_crossed, MicroOp.act, delivered, MicroOp.access, Index.value, startInstr]
  · simp [cycle_dl, MicroOp.act, delivered, MicroOp.access]

/-- The fixing cycle of a read (R135, R141): made only when the page is crossed. -/
theorem at_fixRead {s w : State} {n k : Nat} {u : Addr} {D : List PortEvent} (h : At s w n k u D) (rest : List MicroOp) :
    ∃ w', runOps (.fixRead :: rest) [] w = runOps rest [] w' ∧
      At s w' n (if w.crossed then k + 1 else k) (if w.crossed then u + 0x0100 else u)
        (if w.crossed then readEvents (target s u) else []) ∧ w'.crossed = w.crossed ∧ w'.dl = w.dl := by
  by_cases hc : w.crossed = true
  · refine ⟨_, by simp [runOps, MicroOp.skipped, MicroOp.rest, MicroOp.supply, MicroOp.fetches, hc]; rfl, ⟨?_, ?_, ?_, ?_, ?_⟩, ?_, ?_⟩
    · exact h.same.trans (quiet_same rfl _ _ _)
    · simp [cycle_pc, MicroOp.act, h.pc]
    · simp [hc, h.cycles, Nat.add_assoc]
    · simp [cycle_ad, MicroOp.act, hc, h.ad]
    · simp [cycle_portLog, hc, accessed, MicroOp.access, busRead, h.ad, h.same.target, MicroOp.act]
    · simp [cycle_crossed, MicroOp.act]
    · simp [cycle_dl, MicroOp.act]
  · obtain ⟨r, hr⟩ := h.log
    refine ⟨w, by simp [runOps, MicroOp.skipped, hc], ⟨h.same, h.pc, ?_, ?_, ?_⟩, rfl, rfl⟩
    · simp [hc, h.cycles]
    · simp [hc, h.ad]
    · simp [hc]

/-- The fixing cycle of a write (R136, R142): always made. -/
theorem at_fixWrite {s w : State} {n k : Nat} {u : Addr} {D : List PortEvent} (h : At s w n k u D) (rest : List MicroOp) :
    ∃ w', runOps (.fixWrite :: rest) [] w = runOps rest [] w' ∧
      At s w' n (k + 1) (if w.crossed then u + 0x0100 else u) (readEvents (target s u)) ∧
      w'.crossed = w.crossed ∧ w'.dl = w.dl := by
  refine ⟨_, by simp [runOps, MicroOp.skipped, MicroOp.rest, MicroOp.supply, MicroOp.fetches]; rfl, ⟨?_, ?_, ?_, ?_, ?_⟩, ?_, ?_⟩
  · exact h.same.trans (quiet_same rfl _ _ _)
  · simp [cycle_pc, MicroOp.act, h.pc]
  · simp [h.cycles, Nat.add_assoc]
  · simp [cycle_ad, MicroOp.act, h.ad]
  · simp [cycle_portLog, accessed, MicroOp.access, busRead, h.ad, h.same.target, MicroOp.act]
  · simp [cycle_crossed, MicroOp.act]
  · simp [cycle_dl, MicroOp.act]

/-- (zp,X) (R138). -/
theorem at_izx (o z : Byte) (rest : List MicroOp) (s : State) :
    ∃ w ea, runOps ([.opcode, .argLo, .idxZp .x, .readDL, .ptrHi] ++ rest) [o, z] (startInstr s) = runOps rest [] w ∧
      At s w 2 5 ea [] ∧
      ∀ l h, s.stored (zeroPage (z + s.x)) = some l → s.stored (zeroPage (z + s.x + 1)) = some h → ea = join h l := by
  obtain ⟨w, hw, hat⟩ := at_zpIdx .x o z (.readDL :: .ptrHi :: rest) s
  refine ⟨_, _, by 
    rw [show [MicroOp.opcode, .argLo, .idxZp .x, .readDL, .ptrHi] ++ rest = [.opcode, .argLo, .idxZp .x] ++ (.readDL :: .ptrHi :: rest) from rfl, hw]
    simp [runOps, MicroOp.skipped, MicroOp.rest, MicroOp.supply, MicroOp.fetches]; rfl, ⟨?_, ?_, ?_, rfl, ⟨_, rfl⟩⟩, ?_⟩
  · exact (hat.same.trans (quiet_same rfl _ _ _)).trans (quiet_same rfl _ _ _)
  · simp [cycle_pc, MicroOp.act, hat.pc]
  · simp [hat.cycles, Nat.add_assoc]
  · intro l h hl hh
    have hs1 := hat.same.trans (quiet_same (u := .readDL) rfl (.ptrHi :: rest) none w)
    simp [cycle_ad, cycle_dl, MicroOp.act, delivered, MicroOp.access, hat.ad, nextInPage_zeroPage, Index.value]
    rw [hat.same.busValue hl]; congr 1; exact hs1.busValue hh

/-- (zp),Y before its fixing cycle (R141). -/
theorem at_ptr (o z : Byte) (rest : List MicroOp) (s : State) :
    ∃ w u, runOps ([.opcode, .argLo, .readDL, .ptrHiY] ++ rest) [o, z] (startInstr s) = runOps rest [] w ∧
      At s w 2 4 u [] ∧
      (∀ l h, s.stored (zeroPage z) = some l → s.stored (zeroPage (z + 1)) = some h → u = join h (l + s.y)) ∧
      (∀ l, s.stored (zeroPage z) = some l → w.crossed = carries l s.y) ∧
      (∀ h, s.stored (zeroPage (z + 1)) = some h → w.dl = h) := by
  obtain ⟨w, hw, hat⟩ := at_zp o z (.readDL :: .ptrHiY :: rest) s
  have hs1 := hat.same.trans (quiet_same (u := .readDL) rfl (.ptrHiY :: rest) none w)
  refine ⟨_, _, by 
    rw [show [MicroOp.opcode, .argLo, .readDL, .ptrHiY] ++ rest = [.opcode, .argLo] ++ (.readDL :: .ptrHiY :: rest) from rfl, hw]
    simp [runOps, MicroOp.skipped, MicroOp.rest, MicroOp.supply, MicroOp.fetches]; rfl, ⟨?_, ?_, ?_, rfl, ⟨_, rfl⟩⟩, ?_, ?_, ?_⟩
  · exact (hat.same.trans (quiet_same rfl _ _ _)).trans (quiet_same rfl _ _ _)
  · simp [cycle_pc, MicroOp.act, hat.pc]
  · simp [hat.cycles, Nat.add_assoc]
  · intro l h hl hh
    simp [cycle_ad, cycle_dl, cycle_y, MicroOp.act, delivered, MicroOp.access, hat.ad, nextInPage_zeroPage, hat.same.y]
    rw [hat.same.busValue hl]; congr 1; exact hs1.busValue hh
  · intro l hl
    simp [cycle_crossed, cycle_dl, cycle_y, MicroOp.act, delivered, MicroOp.access, hat.ad, hat.same.y]
    rw [hat.same.busValue hl]
  · intro h hh
    simp [cycle_dl, cycle_ad, MicroOp.act, delivered, MicroOp.access, hat.ad, nextInPage_zeroPage]
    exact hs1.busValue hh

/-! ### Every mode at once -/

/-- The address cycles of a read (R126, R129, R132, R135, R138, R141). -/
def addrRead : Mode → List MicroOp
  | .zp => [.opcode, .argLo]
  | .zpx => [.opcode, .argLo, .idxZp .x]
  | .zpy => [.opcode, .argLo, .idxZp .y]
  | .abs => [.opcode, .argLo, .argHi]
  | .abx => [.opcode, .argLo, .argHiIdx .x, .fixRead]
  | .aby => [.opcode, .argLo, .argHiIdx .y, .fixRead]
  | .izx => [.opcode, .argLo, .idxZp .x, .readDL, .ptrHi]
  | .izy => [.opcode, .argLo, .readDL, .ptrHiY, .fixRead]
  | .imp | .acc | .imm | .rel | .ind => []

/-- Their number, without the fixing cycle. -/
def addrCycles : Mode → Nat
  | .zp => 2
  | .zpx | .zpy | .abs | .abx | .aby => 3
  | .izx => 5
  | .izy => 4
  | .imp | .acc | .imm | .rel | .ind => 0

theorem opLength_mode {op : Byte} (h : op ≠ 0) : opLength op = (opInfo op).mode.length := by
  revert op; decide

theorem encode_two (i : Instr) (hw : i.wellFormed = true) (h : opLength i.opcode = 2) :
    encode i = [i.opcode, i.operandLo] := by rw [encode_eq i hw, h]; rfl

theorem encode_three (i : Instr) (hw : i.wellFormed = true) (h : opLength i.opcode = 3) :
    encode i = [i.opcode, i.operandLo, i.operandHi] := by rw [encode_eq i hw, h]; rfl

/-- What the address cycles of a read do, in every mode. -/
theorem addrRead_at (i : Instr) (s : State) (rest : List MicroOp) (hw : i.wellFormed = true) (h0 : i.opcode ≠ 0)
    (hm : i.mode ∈ ([.zp, .zpx, .zpy, .abs, .abx, .aby, .izx, .izy] : List Mode)) :
    ∃ w ea k D, runOps (addrRead i.mode ++ rest) (encode i) (startInstr s) = runOps rest [] w ∧
      At s w (opLength i.opcode) k ea D ∧
      (∀ e, effective i s = some e → ea = e ∧ D = (if crosses i s = some true then dummyEvents i s else [])) ∧
      (∀ c, crosses i s = some c → k = addrCycles i.mode + flagNat c) ∧
      (i.mode ∉ ([.abx, .aby, .izy] : List Mode) → k = addrCycles i.mode) := by
  have hl := opLength_mode h0
  rw [show (opInfo i.opcode).mode = i.mode from rfl] at hl
  have habs : ∀ (r : Index) (m : Mode), i.mode = m → m.length = 3 →
      crosses i s = some (carries i.operandLo (r.value s)) →
      effective i s = some (join i.operandHi i.operandLo + (r.value s).setWidth 16) →
      uncorrected i s = some (join i.operandHi (i.operandLo + r.value s)) → addrCycles i.mode = 3 → i.mode ∈ ([.abx, .aby, .izy] : List Mode) →
      ∃ w ea k D, runOps ([.opcode, .argLo, .argHiIdx r, .fixRead] ++ rest) (encode i) (startInstr s) = runOps rest [] w ∧
      At s w (opLength i.opcode) k ea D ∧
      (∀ e, effective i s = some e → ea = e ∧ D = (if crosses i s = some true then dummyEvents i s else [])) ∧
      (∀ c, crosses i s = some c → k = addrCycles i.mode + flagNat c) ∧
      (i.mode ∉ ([.abx, .aby, .izy] : List Mode) → k = addrCycles i.mode) := by
    intro r m hmo hlen hc he hu hk hin
    rw [hmo, hlen] at hl
    obtain ⟨w, hr, hat, hcr, _⟩ := at_idx r i.opcode i.operandLo i.operandHi (.fixRead :: rest) s
    obtain ⟨w', hr', hat', _, _⟩ := at_fixRead hat rest
    rw [hcr] at hat'
    rw [encode_three i hw hl, hl]
    refine ⟨w', _, _, _, hr.trans hr', hat', ?_, ?_, fun h => absurd hin h⟩
    · intro e hee
      rw [he] at hee
      refine ⟨(join_add _ _ _).symm.trans (Option.some.inj hee), ?_⟩
      rw [hc]
      cases carries i.operandLo (r.value s) <;> simp [dummyEvents, hu]
    · intro c hcc
      rw [hc] at hcc
      cases hcc
      rw [hk]
      cases carries i.operandLo (r.value s) <;> simp [flagNat]
  cases hmode : i.mode <;> rw [hmode] at hm hl <;> (try (simp at hm; done))
  case zp =>
    obtain ⟨w, hr, hat⟩ := at_zp i.opcode i.operandLo rest s
    rw [encode_two i hw hl, hl]
    exact ⟨w, _, _, _, hr, hat, by simp [effective, crosses, hmode], by simp [crosses, hmode], by simp [addrCycles]⟩
  case zpx =>
    obtain ⟨w, hr, hat⟩ := at_zpIdx .x i.opcode i.operandLo rest s
    rw [encode_two i hw hl, hl]
    exact ⟨w, _, _, _, hr, hat, by simp [effective, crosses, hmode, Index.value], by simp [crosses, hmode], by simp [addrCycles]⟩
  case zpy =>
    obtain ⟨w, hr, hat⟩ := at_zpIdx .y i.opcode i.operandLo rest s
    rw [encode_two i hw hl, hl]
    exact ⟨w, _, _, _, hr, hat, by simp [effective, crosses, hmode, Index.value], by simp [crosses, hmode], by simp [addrCycles]⟩
  case abs =>
    obtain ⟨w, hr, hat⟩ := at_abs i.opcode i.operandLo i.operandHi rest s
    rw [encode_three i hw hl, hl]
    exact ⟨w, _, _, _, hr, hat, by simp [effective, crosses, hmode], by simp [crosses, hmode], by simp [addrCycles]⟩
  case abx =>
    rw [← hmode]
    have := habs .x .abx hmode rfl (by simp only [crosses, hmode]; rfl) (by simp [effective, hmode, Index.value]) (by simp [uncorrected, hmode, Index.value]) (by rw [hmode]; rfl) (by rw [hmode]; decide)
    rw [hmode] at this ⊢
    exact this
  case aby =>
    have := habs .y .aby hmode rfl (by simp only [crosses, hmode]; rfl) (by simp [effective, hmode, Index.value]) (by simp [uncorrected, hmode, Index.value]) (by rw [hmode]; rfl) (by rw [hmode]; decide)
    rw [hmode] at this
    exact this
  case izx =>
    obtain ⟨w, ea, hr, hat, hea⟩ := at_izx i.opcode i.operandLo rest s
    rw [encode_two i hw hl, hl]
    refine ⟨w, _, _, _, hr, hat, ?_, by simp [crosses, hmode], by simp [addrCycles]⟩
    intro e he
    simp only [effective, hmode] at he
    split at he
    · next l h hl hh => exact ⟨(hea l h hl hh).trans (Option.some.inj he), by simp [crosses, hmode]⟩
    · cases he
  case izy =>
    obtain ⟨w, u, hr, hat, hu, hcr, _⟩ := at_ptr i.opcode i.operandLo (.fixRead :: rest) s
    obtain ⟨w', hr', hat', _, _⟩ := at_fixRead hat rest
    rw [encode_two i hw hl, hl]
    refine ⟨w', _, _, _, hr.trans hr', hat', ?_, ?_, by simp⟩
    · intro e he
      simp only [effective, hmode] at he
      split at he
      · next l h hl hh =>
        have hc := hcr l hl
        have hu' := hu l h hl hh
        rw [hc, hu']
        refine ⟨(join_add _ _ _).symm.trans (Option.some.inj he), ?_⟩
        have : crosses i s = some (carries l s.y) := by simp only [crosses, hmode, hl]; rfl
        rw [this]
        have hun : uncorrected i s = some (join h (l + s.y)) := by simp only [uncorrected, hmode, hl, hh]
        cases carries l s.y <;> simp [dummyEvents, hun]
      · cases he
    · intro c hc
      simp only [crosses, hmode, Option.map_eq_some_iff] at hc
      obtain ⟨l, hl, rfl⟩ := hc
      rw [hcr l hl]
      cases hcc : carries l s.y <;> simp [carries] at hcc <;> simp [addrCycles, flagNat, hcc]

/-- The address cycles of a write or a read-modify-write (R127, R130, R133, R136, R139, R142). -/
def addrWrite : Mode → List MicroOp
  | .zp => [.opcode, .argLo]
  | .zpx => [.opcode, .argLo, .idxZp .x]
  | .zpy => [.opcode, .argLo, .idxZp .y]
  | .abs => [.opcode, .argLo, .argHi]
  | .abx => [.opcode, .argLo, .argHiIdx .x, .fixWrite]
  | .aby => [.opcode, .argLo, .argHiIdx .y, .fixWrite]
  | .izx => [.opcode, .argLo, .idxZp .x, .readDL, .ptrHi]
  | .izy => [.opcode, .argLo, .readDL, .ptrHiY, .fixWrite]
  | .imp | .acc | .imm | .rel | .ind => []

/-- Their number. -/
def addrWriteCycles : Mode → Nat
  | .zp => 2
  | .zpx | .zpy | .abs => 3
  | .abx | .aby => 4
  | .izx | .izy => 5
  | .imp | .acc | .imm | .rel | .ind => 0

/-- What the address cycles of a write or a read-modify-write do, in every mode. -/
theorem addrWrite_at (i : Instr) (s : State) (rest : List MicroOp) (hw : i.wellFormed = true) (h0 : i.opcode ≠ 0)
    (hm : i.mode ∈ ([.zp, .zpx, .zpy, .abs, .abx, .aby, .izx, .izy] : List Mode)) :
    ∃ w ea D, runOps (addrWrite i.mode ++ rest) (encode i) (startInstr s) = runOps rest [] w ∧
      At s w (opLength i.opcode) (addrWriteCycles i.mode) ea D ∧
      (∀ e, effective i s = some e → ea = e ∧ D = dummyEvents i s) ∧
      (∀ c, crosses i s = some c → w.crossed = c) ∧ (∀ h, baseHigh i s = some h → w.dl = h) := by
  have hl := opLength_mode h0
  rw [show (opInfo i.opcode).mode = i.mode from rfl] at hl
  have hdir : ∀ {e ea : Addr}, effective i s = some e → e = ea → uncorrected i s = none →
     ∀ e', effective i s = some e' → ea = e' ∧ [] = dummyEvents i s := by
    intro e ea he hea hu e' he'
    rw [he] at he'
    exact ⟨hea.symm.trans (Option.some.inj he'), by simp [dummyEvents, hu]⟩
  have habs : ∀ (r : Index) (m : Mode), i.mode = m → m.length = 3 →
      crosses i s = some (carries i.operandLo (r.value s)) →
      effective i s = some (join i.operandHi i.operandLo + (r.value s).setWidth 16) →
      uncorrected i s = some (join i.operandHi (i.operandLo + r.value s)) → addrWriteCycles i.mode = 4 →
      baseHigh i s = some i.operandHi →
      ∃ w ea D, runOps ([.opcode, .argLo, .argHiIdx r, .fixWrite] ++ rest) (encode i) (startInstr s) = runOps rest [] w ∧
      At s w (opLength i.opcode) (addrWriteCycles i.mode) ea D ∧
      (∀ e, effective i s = some e → ea = e ∧ D = dummyEvents i s) ∧
      (∀ c, crosses i s = some c → w.crossed = c) ∧ (∀ h, baseHigh i s = some h → w.dl = h) := by
    intro r m hmo hlen hc he hu hk hb
    rw [hmo, hlen] at hl
    obtain ⟨w, hr, hat, hcr, hdl⟩ := at_idx r i.opcode i.operandLo i.operandHi (.fixWrite :: rest) s
    obtain ⟨w', hr', hat', hcr', hdl'⟩ := at_fixWrite hat rest
    rw [hcr] at hat'
    rw [encode_three i hw hl, hl, hk]
    refine ⟨w', _, _, hr.trans hr', hat', ?_, ?_, ?_⟩
    · intro e hee
      rw [he] at hee
      exact ⟨(join_add _ _ _).symm.trans (Option.some.inj hee), by simp [dummyEvents, hu]⟩
    · intro c hcc
      rw [hc] at hcc
      rw [hcr', hcr]
      exact Option.some.inj hcc
    · intro h hh
      rw [hb] at hh
      rw [hdl', hdl]
      exact Option.some.inj hh
  cases hmode : i.mode <;> rw [hmode] at hm hl <;> (try (simp at hm; done))
  case zp =>
    obtain ⟨w, hr, hat⟩ := at_zp i.opcode i.operandLo rest s
    rw [encode_two i hw hl, hl]
    exact ⟨w, _, _, hr, hat, hdir (e := zeroPage i.operandLo) (by simp only [effective, hmode]) rfl (by simp only [uncorrected, hmode]),
      by simp [crosses, hmode], by simp [baseHigh, hmode]⟩
  case zpx =>
    obtain ⟨w, hr, hat⟩ := at_zpIdx .x i.opcode i.operandLo rest s
    rw [encode_two i hw hl, hl]
    exact ⟨w, _, _, hr, hat, hdir (e := zeroPage (i.operandLo + s.x)) (by simp only [effective, hmode]) rfl (by simp only [uncorrected, hmode]), by simp [crosses, hmode], by simp [baseHigh, hmode]⟩
  case zpy =>
    obtain ⟨w, hr, hat⟩ := at_zpIdx .y i.opcode i.operandLo rest s
    rw [encode_two i hw hl, hl]
    exact ⟨w, _, _, hr, hat, hdir (e := zeroPage (i.operandLo + s.y)) (by simp only [effective, hmode]) rfl (by simp only [uncorrected, hmode]), by simp [crosses, hmode], by simp [baseHigh, hmode]⟩
  case abs =>
    obtain ⟨w, hr, hat⟩ := at_abs i.opcode i.operandLo i.operandHi rest s
    rw [encode_three i hw hl, hl]
    exact ⟨w, _, _, hr, hat, hdir (e := join i.operandHi i.operandLo) (by simp only [effective, hmode]) rfl (by simp only [uncorrected, hmode]), by simp [crosses, hmode], by simp [baseHigh, hmode]⟩
  case abx =>
    have := habs .x .abx hmode rfl (by simp only [crosses, hmode]; rfl) (by simp [effective, hmode, Index.value]) (by simp [uncorrected, hmode, Index.value]) (by rw [hmode]; rfl) (by simp only [baseHigh, hmode])
    rw [hmode] at this
    exact this
  case aby =>
    have := habs .y .aby hmode rfl (by simp only [crosses, hmode]; rfl) (by simp [effective, hmode, Index.value]) (by simp [uncorrected, hmode, Index.value]) (by rw [hmode]; rfl) (by simp only [baseHigh, hmode])
    rw [hmode] at this
    exact this
  case izx =>
    obtain ⟨w, ea, hr, hat, hea⟩ := at_izx i.opcode i.operandLo rest s
    rw [encode_two i hw hl, hl]
    refine ⟨w, _, _, hr, hat, ?_, by simp [crosses, hmode], by simp [baseHigh, hmode]⟩
    intro e he
    simp only [effective, hmode] at he
    split at he
    · next l h hl hh =>
      exact ⟨(hea l h hl hh).trans (Option.some.inj he), by simp [dummyEvents, uncorrected, hmode]⟩
    · cases he
  case izy =>
    obtain ⟨w, u, hr, hat, hu, hcr, hdl⟩ := at_ptr i.opcode i.operandLo (.fixWrite :: rest) s
    obtain ⟨w', hr', hat', hcr', hdl'⟩ := at_fixWrite hat rest
    rw [encode_two i hw hl, hl]
    refine ⟨w', _, _, hr.trans hr', hat', ?_, ?_, ?_⟩
    · intro e he
      simp only [effective, hmode] at he
      split at he
      · next l h hl hh =>
        have hc := hcr l hl
        have hu' := hu l h hl hh
        rw [hc, hu']
        have hun : uncorrected i s = some (join h (l + s.y)) := by simp only [uncorrected, hmode, hl, hh]
        exact ⟨(join_add _ _ _).symm.trans (Option.some.inj he), by simp [dummyEvents, hun]⟩
      · cases he
    · intro c hc
      simp only [crosses, hmode, Option.map_eq_some_iff] at hc
      obtain ⟨l, hl, rfl⟩ := hc
      rw [hcr', hcr l hl]
      rfl
    · intro h hh
      simp only [baseHigh, hmode] at hh
      rw [hdl', hdl h hh]

end Sys2Proof.Machine
end

