-- ==== Sys2Proof/Laws/Classes.lean ====
section
/-! SUPPORT. What an instruction of each access class does, once for the class: the state after its sequence, from the
sequence its opcode selects (30_encoding.md R96, 40_sequencer.md R122 to R143). Later proofs cite these and unfold no
cycle. -/

namespace Sys2Proof.Machine

/-- The registers, the flags, the profile and the counter of free values agree: all that an operation reads. -/
structure Agree (p q : State) : Prop where
  a : p.a = q.a
  x : p.x = q.x
  y : p.y = q.y
  sp : p.sp = q.sp
  fN : p.fN = q.fN
  fV : p.fV = q.fV
  fD : p.fD = q.fD
  fI : p.fI = q.fI
  fZ : p.fZ = q.fZ
  fC : p.fC = q.fC
  profile : p.profile = q.profile
  freeIdx : p.freeIdx = q.freeIdx

/-- The state with another counter of free values. -/
def State.withFree (k : Nat) (s : State) : State := { s with freeIdx := k }

/-- After quiet cycles, the state an operation is applied to agrees with the start, but for the counter. -/
theorem agree_accessed {s w : State} (h : Same s w) (u : MicroOp) (v : Option Byte) :
    Agree (accessed u v w) (s.withFree (accessed u v w).freeIdx) := by
  constructor <;> simp [State.withFree, h.a,h.x,h.y,h.sp,h.fN,h.fV,h.fD,h.fI,h.fZ,h.fC,h.profile]

/-- The registers and flags of the programmer's view agree. -/
structure SameRegs (p q : State) : Prop where
  a : p.a = q.a
  x : p.x = q.x
  y : p.y = q.y
  sp : p.sp = q.sp
  fN : p.fN = q.fN
  fV : p.fV = q.fV
  fD : p.fD = q.fD
  fI : p.fI = q.fI
  fZ : p.fZ = q.fZ
  fC : p.fC = q.fC

/-- A read operation's registers and flags depend only on what `Agree` compares. -/
theorem readOp_congr (op : ReadOp) (m : Byte) {p q : State} (h : Agree p q) :
    SameRegs (op.apply m p) (op.apply m q) := by
  cases op <;> constructor <;>
    simp [ReadOp.apply, opLda, opLdx, opLdy, opAdc, opSbc, opAnd, opOra, opEor, opCmp, opCpx, opCpy, opBit, opNop, opLax, opLas, opAnc, opAlr, opArr, opSbx, opUsbc, opAne, opLxa, setNZ, setShift, compare, adcIntoA, sbcIntoA, arrResult, aneMagic, lxaMagic,
      h.a,h.x,h.y,h.sp,h.fN,h.fV,h.fD,h.fI,h.fZ,h.fC,h.profile,h.freeIdx]

/-- A read-modify-write operation's registers and flags depend only on what `Agree` compares. -/
theorem rmwOp_congr (op : RmwOp) (m : Byte) {p q : State} (h : Agree p q) :
    SameRegs (op.apply m p) (op.apply m q) := by
  cases op <;> constructor <;>
    simp [RmwOp.apply, opAsl, opLsr, opRol, opRor, opInc, opDec, opSlo, opRla, opSre, opRra, opDcp, opIsc, setNZ, setShift, compare, adcIntoA, sbcIntoA,
      h.a,h.x,h.y,h.sp,h.fV,h.fD,h.fI,h.fC]

/-- An implied operation's registers and flags depend only on what `Agree` compares. -/
theorem impliedOp_congr (op : ImpliedOp) {p q : State} (h : Agree p q) :
    SameRegs (op.apply p) (op.apply q) := by
  cases op <;> constructor <;>
    simp [ImpliedOp.apply, opTax, opTay, opTxa, opTya, opTsx, opTxs, opInx, opIny, opDex, opDey, opAslA, opLsrA, opRolA, opRorA, setNZ, setShift,
      h.a,h.x,h.y,h.sp,h.fN,h.fV,h.fD,h.fI,h.fZ,h.fC]

/-- The view is the registers, the flags and the bytes shown. -/
theorem view_of {t q : State} (h : SameRegs t q) (hm : t.stored = q.stored) : t.view = q.view := by
  simp [State.view, h.a,h.x,h.y,h.sp,h.fN,h.fV,h.fD,h.fI,h.fZ,h.fC,hm]

/-- The bytes shown depend on the memory and the profile alone. -/
theorem stored_congr {p q : State} (hm : p.mem = q.mem) (hp : p.profile = q.profile) : p.stored = q.stored := by
  funext a; simp [State.stored, target, hm, hp]

/-- A cycle that is made, then the rest. -/
theorem runOps_cons {u : MicroOp} {us : List MicroOp} {bytes : List Byte} {s : State} (h : u.skipped s = false) :
    runOps (u :: us) bytes s = runOps us (u.rest bytes) (cycle u us (u.supply bytes) s) := by
  simp [runOps, h]

/-- Nothing left to run. -/
@[simp] theorem runOps_nil (bytes : List Byte) (s : State) : runOps [] bytes s = s := rfl

/-- A sequence that starts with an unskipped cycle ends at a boundary. -/
theorem runOps_boundary {u : MicroOp} (us : List MicroOp) (bytes : List Byte) {s : State} (h : u.skipped s = false) :
    (runOps (u :: us) bytes s).AtBoundary := by
  have hr : remaining (u :: us) s ≠ 0 := by simp [remaining, h]
  exact ⟨(runOps_ends _ _ _ hr).1, (runOps_ends _ _ _ hr).2⟩

/-- An instruction's sequence ends at a boundary with nothing untouched changed. -/
theorem ends_of {ops : List MicroOp} {bytes : List Byte} {s t : State} (ht : t = runOps ops bytes (startInstr s))
    (hr : remaining ops (startInstr s) ≠ 0) (hh : t.halted = s.halted) (hf : s.noBusFault → t.fault = s.fault) :
    Ends s t := by
  subst ht
  refine ⟨⟨(runOps_ends _ _ _ hr).1, (runOps_ends _ _ _ hr).2⟩, ?_⟩
  constructor <;> first | assumption | simp [startInstr]

/-- A read operation writes neither memory, latches nor PC. -/
theorem readOp_mem (op : ReadOp) (m : Byte) (s : State) : (op.apply m s).mem = s.mem ∧ (op.apply m s).profile = s.profile ∧ (op.apply m s).ad = s.ad ∧ (op.apply m s).pc = s.pc ∧ (op.apply m s).halted = s.halted ∧ (op.apply m s).fault = s.fault ∧ (op.apply m s).dl = s.dl ∧ (op.apply m s).crossed = s.crossed := by
  cases op <;> exact ⟨rfl, rfl, rfl, rfl, rfl, rfl, rfl, rfl⟩

/-- The last cycle of a memory read (R122). -/
theorem read_last {s w : State} {n k : Nat} {ea : Addr} {D : List PortEvent} (op : ReadOp) (h : At s w n k ea D) :
    ∃ t f, runOps [.read op] [] w = t ∧ t.ad = ea ∧ t.pc = s.pc + BitVec.ofNat 16 n ∧ t.cycles = s.cycles + (k + 1) ∧
      (∀ v, s.stored ea = some v → t.busLatch = v) ∧ (∃ rest, t.portLog = readEvents (target s ea) ++ D ++ rest) ∧
      t.view = (op.apply t.busLatch (s.withFree f)).view ∧ t.halted = s.halted ∧ (s.noBusFault → t.fault = s.fault) := by
  have hb : (cycle (.read op) [] none w).busLatch = busValue ea w := by
    rw [cycle_busLatch]; simp [delivered, MicroOp.access, h.ad]
  refine ⟨cycle (.read op) [] none w, (accessed (.read op) none w).freeIdx, by simp [runOps, MicroOp.skipped, MicroOp.supply, MicroOp.fetches], ?_, ?_, ?_, ?_, ?_, ?_, ?_, ?_⟩
  · simp [cycle_ad, MicroOp.act, readOp_mem, h.ad]
  · simp [cycle_pc, MicroOp.act, readOp_mem, h.pc]
  · simp [h.cycles, Nat.add_assoc]
  · intro v hv
    rw [hb]; exact h.same.busValue hv
  · obtain ⟨r, hr⟩ := h.log
    refine ⟨r, ?_⟩
    simp [cycle_portLog, accessed, MicroOp.access, busRead, h.ad, h.same.target, hr]
  · have hd : delivered (.read op) none w = busValue ea w := by simp [delivered, MicroOp.access, h.ad]
    have hc := readOp_congr op (busValue ea w) (agree_accessed h.same (.read op) none)
    rw [hb]
    refine view_of ⟨?_, ?_, ?_, ?_, ?_, ?_, ?_, ?_, ?_, ?_⟩ (stored_congr ?_ ?_)
    · simpa [cycle_a, MicroOp.act, hd] using hc.a
    · simpa [cycle_x, MicroOp.act, hd] using hc.x
    · simpa [cycle_y, MicroOp.act, hd] using hc.y
    · simpa [cycle_sp, MicroOp.act, hd] using hc.sp
    · simpa [cycle_fN, MicroOp.act, hd] using hc.fN
    · simpa [cycle_fV, MicroOp.act, hd] using hc.fV
    · simpa [cycle_fD, MicroOp.act, hd] using hc.fD
    · simpa [cycle_fI, MicroOp.act, hd] using hc.fI
    · simpa [cycle_fZ, MicroOp.act, hd] using hc.fZ
    · simpa [cycle_fC, MicroOp.act, hd] using hc.fC
    · rw [cycle_mem]; simp [MicroOp.access, readOp_mem, State.withFree, h.same.mem]
    · simp [readOp_mem, State.withFree, h.same.profile]
  · simp [cycle_halted, MicroOp.act, readOp_mem, h.same.halted]
  · intro hs
    simp [cycle_fault, MicroOp.act, readOp_mem, accessed_fault (h.same.noBusFault hs), h.same.fault hs]


/-- The immediate read (R125). -/
theorem read_imm (op : ReadOp) (o v : Byte) (s : State) :
    ∃ t f, runOps (readImm op) [o, v] (startInstr s) = t ∧ t.pc = s.pc + BitVec.ofNat 16 2 ∧ t.cycles = s.cycles + 2 ∧
      t.busLatch = v ∧ t.view = (op.apply v (s.withFree f)).view ∧ t.halted = s.halted ∧
      (s.noBusFault → t.fault = s.fault) := by
  have h1 : Same s (cycle .opcode [.imm op] (some o) (startInstr s)) :=
    (Same.start s).trans (quiet_same rfl _ _ _)
  have hd : ∀ w, delivered (.imm op) (some v) w = v := fun w => by simp [delivered, MicroOp.access]
  refine ⟨cycle (.imm op) [] (some v) (cycle .opcode [.imm op] (some o) (startInstr s)), 
    (accessed (.imm op) (some v) (cycle .opcode [.imm op] (some o) (startInstr s))).freeIdx,
    by simp [readImm, runOps, MicroOp.skipped, MicroOp.supply, MicroOp.fetches, MicroOp.rest], ?_, ?_, ?_, ?_, ?_, ?_⟩
  · simp [cycle_pc, MicroOp.act, readOp_mem, startInstr, pc2]
  · simp [startInstr]
  · simp [cycle_busLatch, hd]
  · have ha := agree_accessed h1 (.imm op) (some v)
    have hc := readOp_congr op v (p := { accessed (.imm op) (some v) (cycle .opcode [.imm op] (some o) (startInstr s)) with
      pc := (cycle .opcode [.imm op] (some o) (startInstr s)).pc + 1 }) (q := s.withFree _) ⟨ha.a, ha.x, ha.y, ha.sp, ha.fN, ha.fV, ha.fD, ha.fI, ha.fZ, ha.fC, ha.profile, ha.freeIdx⟩
    refine view_of ⟨?_, ?_, ?_, ?_, ?_, ?_, ?_, ?_, ?_, ?_⟩ (stored_congr ?_ ?_)
    · simpa [cycle_a, MicroOp.act, hd] using hc.a
    · simpa [cycle_x, MicroOp.act, hd] using hc.x
    · simpa [cycle_y, MicroOp.act, hd] using hc.y
    · simpa [cycle_sp, MicroOp.act, hd] using hc.sp
    · simpa [cycle_fN, MicroOp.act, hd] using hc.fN
    · simpa [cycle_fV, MicroOp.act, hd] using hc.fV
    · simpa [cycle_fD, MicroOp.act, hd] using hc.fD
    · simpa [cycle_fI, MicroOp.act, hd] using hc.fI
    · simpa [cycle_fZ, MicroOp.act, hd] using hc.fZ
    · simpa [cycle_fC, MicroOp.act, hd] using hc.fC
    · rw [cycle_mem]; simp [MicroOp.access, readOp_mem, State.withFree, h1.mem]
    · simp [readOp_mem, State.withFree]
  · simp [cycle_halted, MicroOp.act, readOp_mem, startInstr]
  · intro hs
    rw [cycle_fault]
    simp only [MicroOp.act, readOp_mem, accessed_fault (h1.noBusFault hs)]
    exact h1.fault hs

/-- The cycle table by class and mode (R154). -/
theorem baseCycles_eq (i : Instr) : i.baseCycles =
  match i.accessClass, i.mode with
  | .read, .imm => 2
  | .read, .zp => 3
  | .read, .zpx | .read, .zpy | .read, .abs | .read, .abx | .read, .aby => 4
  | .read, .izx => 6
  | .read, .izy => 5
  | .write, .zp => 3
  | .write, .zpx | .write, .zpy | .write, .abs => 4
  | .write, .abx | .write, .aby => 5
  | .write, .izx | .write, .izy => 6
  | .rmw, .zp => 5
  | .rmw, .zpx | .rmw, .abs => 6
  | .rmw, .abx | .rmw, .aby => 7
  | .rmw, .izx | .rmw, .izy => 8
  | .implied, _ | .branch, _ => 2
  | .stack, _ => if i.mnemonic = .pha ∨ i.mnemonic = .php then 3 else 4
  | .jump, .ind => 5
  | .jump, _ => if i.mnemonic = .jmp then 3 else 6
  | .interrupt, _ => 7
  | .halt, _ => 1
  | _, _ => 0 := rfl

/-- A sequence that starts with its opcode fetch has a cycle to make. -/
theorem remaining_opcode (us : List MicroOp) (s : State) : remaining (.opcode :: us) s ≠ 0 := by
  simp [remaining, MicroOp.skipped]

/-- The sequence of the read class in a mode. -/
def readSeq : Mode → ReadOp → List MicroOp
  | .imm, op => readImm op
  | m, op => addrRead m ++ [.read op]

/-- The address part of a read starts with the opcode fetch. -/
theorem addrRead_opcode {m : Mode} (hm : m ∈ ([.zp, .zpx, .zpy, .abs, .abx, .aby, .izx, .izy] : List Mode)) (r : List MicroOp) :
   ∃ us, addrRead m ++ r = .opcode :: us := by
  cases m <;> first | (simp at hm; done) | exact ⟨_, rfl⟩

/-- THE READ CLASS (R122, R125 to R141): the operand read, then the operation on it. -/
theorem read_class (i : Instr) (s : State) (op : ReadOp) (hw : i.wellFormed = true) (h0 : i.opcode ≠ 0)
    (hm : i.mode ∈ ([.imm, .zp, .zpx, .zpy, .abs, .abx, .aby, .izx, .izy] : List Mode)) (hc : i.accessClass = .read)
    (hs : sequenceOf s.profile.policy i.opcode = readSeq i.mode op) :
    ∃ t f, exec i s = .next t ∧ Completes i s t ∧ OperandRead i s t ∧
      t.view = (op.apply t.busLatch (s.withFree f)).view := by
  rw [exec_eq i s hw, hs]
  by_cases himm : i.mode = .imm
  · have hl : opLength i.opcode = 2 := by rw [opLength_mode h0, show (opInfo i.opcode).mode = i.mode from rfl, himm]; rfl
    obtain ⟨t, f, ht, hpc, hcy, hb, hv, hh, hf⟩ := read_imm op i.opcode i.operandLo s
    have hseq : readSeq i.mode op = readImm op := by rw [himm]; rfl
    rw [hseq, encode_two i hw hl]
    refine ⟨t, f, by rw [ht], ⟨ends_of ht.symm (remaining_opcode _ _) hh hf, by rw [hl]; exact hpc, ?_⟩, ⟨fun _ => hb, ?_⟩, by rw [hb]; exact hv⟩
    · intro n hn
      simp only [extraCycles, hc, himm, Option.some.injEq] at hn
      simp [hcy, baseCycles_eq, hc, himm, ← hn]
    · intro e he; simp [effective, himm] at he
  · have hm' : i.mode ∈ ([.zp, .zpx, .zpy, .abs, .abx, .aby, .izx, .izy] : List Mode) := by
      simpa [himm] using hm
    have hseq : readSeq i.mode op = addrRead i.mode ++ [.read op] := by
      cases hmo : i.mode <;> first | rfl | (exact absurd hmo himm)
    obtain ⟨w, ea, k, D, hr, hat, hea, hk, hk'⟩ := addrRead_at i s [.read op] hw h0 hm'
    obtain ⟨t, f, ht, had, hpc, hcy, hv, hlog, hview, hh, hf⟩ := read_last op hat
    rw [hseq, hr, ht]
    have hrun : t = runOps (addrRead i.mode ++ [.read op]) (encode i) (startInstr s) := by rw [hr, ht]
    refine ⟨t, f, rfl, ⟨ends_of hrun (by obtain ⟨us, hus⟩ := addrRead_opcode hm' [.read op]; rw [hus]; exact remaining_opcode _ _) hh hf, hpc, ?_⟩, ⟨fun h => absurd h himm, ?_⟩, hview⟩
    · intro n hn
      rw [hcy]
      cases hmo : i.mode <;> rw [hmo] at hm' <;> (try (simp at hm'; done)) <;>
        simp only [extraCycles, hc, hmo, Option.some.injEq, Option.map_eq_some_iff] at hn <;>
        simp only [baseCycles_eq, hc, hmo] <;>
        simp only [hmo, addrCycles] at hk hk'
      case abx => obtain ⟨c, hcc, rfl⟩ := hn; rw [hk c hcc]; omega
      case aby => obtain ⟨c, hcc, rfl⟩ := hn; rw [hk c hcc]; omega
      case izy => obtain ⟨c, hcc, rfl⟩ := hn; rw [hk c hcc]; omega
      all_goals (rw [hk' (by decide), ← hn])
    · intro e he
      obtain ⟨rfl, rfl⟩ := hea e he
      exact ⟨had, hv, hlog⟩

/-! ### Stores -/

/-- The bytes after a RAM or ROM write, as `afterStore` says (R63, R65). -/
theorem stored_memAfterWrite {s t : State} {a : Addr} {v : Byte} {m : List Host.Cell} (hm : Memory.wf m = true)
    (ht : t.mem = memAfterWrite (target s a) v m) (hp : t.profile = s.profile) :
    t.stored = s.afterStore a v (State.stored { s with mem := m }) := by
  funext b
  have htar : target t b = target s b := by unfold target; rw [hp]
  have htar' : target { s with mem := m } b = target s b := rfl
  unfold State.afterStore State.stored
  rw [htar, htar', ht]
  by_cases hk : (target s a).kind = .ram
  · by_cases hc : (target s b).cell = (target s a).cell
    · rw [if_pos ⟨hk, hc⟩, hc, read_memAfterWrite_ram v hm hk]
      cases (target s b).kind <;> rfl
    · rw [if_neg (fun h => hc h.2), read_memAfterWrite_other _ _ _ hc]
  · rw [if_neg (fun h => hk h.1), memAfterWrite_notRam _ _ _ hk]

/-- The last cycle of a write (R122). -/
theorem write_last {s w : State} {n k : Nat} {ea : Addr} {D : List PortEvent} (op : StoreOp) (h : At s w n k ea D)
    (hm : Memory.wf s.mem = true) :
    ∃ t, runOps [.write op] [] w = t ∧ t.ad = ea ∧ t.pc = s.pc + BitVec.ofNat 16 n ∧ t.cycles = s.cycles + (k + 1) ∧
      t.busLatch = op.value s ∧ (∃ rest, t.portLog = writeEvents (target s ea) (op.value s) ++ D ++ rest) ∧
      t.view = { s.view with cells := s.afterStore ea (op.value s) s.stored } ∧ t.halted = s.halted ∧
      (s.noBusFault → t.fault = s.fault) := by
  have hval : op.value w = op.value s := by cases op <;> simp [StoreOp.value, h.same.a, h.same.x, h.same.y]
  refine ⟨cycle (.write op) [] none w, by simp [runOps, MicroOp.skipped, MicroOp.supply, MicroOp.fetches], ?_, ?_, ?_, ?_, ?_, ?_, ?_, ?_⟩
  · simp [cycle_ad, MicroOp.act, h.ad]
  · simp [cycle_pc, MicroOp.act, h.pc]
  · simp [h.cycles, Nat.add_assoc]
  · simp [cycle_busLatch, delivered, MicroOp.access, hval]
  · obtain ⟨r, hr⟩ := h.log
    refine ⟨r, ?_⟩
    simp [cycle_portLog, accessed, MicroOp.access, busWrite, h.ad, h.same.target, hr, hval]
  · have hst : (cycle (.write op) [] none w).stored = s.afterStore ea (op.value s) s.stored := by
      refine stored_memAfterWrite hm ?_ ?_
      · rw [cycle_mem]; simp [MicroOp.access, h.ad, h.same.target, h.same.mem, hval]
      · simp [h.same.profile]
    simp [State.view, hst, cycle_a, cycle_x, cycle_y, cycle_sp, cycle_fN, cycle_fV, cycle_fD, cycle_fI, cycle_fZ, cycle_fC, MicroOp.act,
      h.same.a, h.same.x, h.same.y, h.same.sp, h.same.fN, h.same.fV, h.same.fD, h.same.fI, h.same.fZ, h.same.fC]
  · simp [cycle_halted, MicroOp.act, h.same.halted]
  · intro hs
    rw [cycle_fault]
    simp only [MicroOp.act, accessed_fault (h.same.noBusFault hs)]
    exact h.same.fault hs

/-- The modes with an operand in memory. -/
def memoryModes : List Mode := [.zp, .zpx, .zpy, .abs, .abx, .aby, .izx, .izy]

/-- The address part of a write starts with the opcode fetch. -/
theorem addrWrite_opcode {m : Mode} (hm : m ∈ memoryModes) (r : List MicroOp) :
   ∃ us, addrWrite m ++ r = .opcode :: us := by
  cases m <;> first | (simp [memoryModes] at hm; done) | exact ⟨_, rfl⟩

/-- THE WRITE CLASS (R122, R127 to R142): the register's byte written at the effective address. -/
theorem write_class (i : Instr) (s : State) (op : StoreOp) (hw : i.wellFormed = true) (h0 : i.opcode ≠ 0)
    (hm : i.mode ∈ memoryModes) (hc : i.accessClass = .write) (hmem : Memory.wf s.mem = true)
    (hs : sequenceOf s.profile.policy i.opcode = addrWrite i.mode ++ [.write op]) :
    ∃ t, exec i s = .next t ∧ Completes i s t ∧ OperandWritten i s t ∧ t.busLatch = op.value s ∧
      t.view = { s.view with cells := s.afterStore t.ad (op.value s) s.stored } := by
  rw [exec_eq i s hw, hs]
  obtain ⟨w, ea, D, hr, hat, hea, _, _⟩ := addrWrite_at i s [.write op] hw h0 hm
  obtain ⟨t, ht, had, hpc, hcy, hv, hlog, hview, hh, hf⟩ := write_last op hat hmem
  rw [hr, ht]
  have hrun : t = runOps (addrWrite i.mode ++ [.write op]) (encode i) (startInstr s) := by rw [hr, ht]
  refine ⟨t, rfl, ⟨ends_of hrun (by obtain ⟨us, hus⟩ := addrWrite_opcode hm [.write op]; rw [hus]; exact remaining_opcode _ _) hh hf, hpc, ?_⟩, ?_, hv, by rw [had]; exact hview⟩
  · intro n hn
    rw [hcy]
    simp only [extraCycles, hc, Option.some.injEq] at hn
    subst hn
    cases hmo : i.mode <;> rw [hmo] at hm <;> (try (simp [memoryModes] at hm; done)) <;>
      simp only [baseCycles_eq, hc, hmo, addrWriteCycles]
  · intro e he
    obtain ⟨rfl, rfl⟩ := hea e he
    rw [hv]
    exact ⟨had, hlog⟩

/-- S after an unstable store: TAS sets it (R344). -/
def UnstableOp.spAfter (op : UnstableOp) (s : State) : Byte :=
  match op with
  | .tas => s.a &&& s.x
  | .sha | .shx | .shy => s.sp

/-- The last cycle of an unstable store (R340). -/
theorem unstable_last {s w : State} {n k : Nat} {ea : Addr} {D : List PortEvent} (op : UnstableOp) (h : At s w n k ea D)
    (hm : Memory.wf s.mem = true) :
    ∃ t, runOps [.writeUnstable op] [] w = t ∧ t.ad = op.address w ∧ t.busLatch = op.value w ∧ lo t.ad = lo ea ∧ 
      t.pc = s.pc + BitVec.ofNat 16 n ∧ t.cycles = s.cycles + (k + 1) ∧
      t.view = { s.view with sp := op.spAfter s, cells := s.afterStore t.ad t.busLatch s.stored } ∧ t.halted = s.halted ∧
      (s.noBusFault → t.fault = s.fault) := by
  have had : (cycle (.writeUnstable op) [] none w).ad = op.address w := by
    rw [cycle_ad]
    simp only [MicroOp.act, UnstableOp.finish, UnstableOp.address, UnstableOp.value, UnstableOp.reg, accessed_a, accessed_x, accessed_y, accessed_dl, accessed_ad, accessed_crossed, accessed_profile]
    have hfree : (accessed (.writeUnstable op) none w).freeIdx = w.freeIdx := by
      simp [accessed, MicroOp.access, busWrite]
    rw [hfree]
  have hb : (cycle (.writeUnstable op) [] none w).busLatch = op.value w := by
    simp [cycle_busLatch, delivered, MicroOp.access]
  refine ⟨cycle (.writeUnstable op) [] none w, by simp [runOps, MicroOp.skipped, MicroOp.supply, MicroOp.fetches], had, hb, ?_, ?_, ?_, ?_, ?_, ?_⟩
  · rw [had, ← h.ad]
    unfold UnstableOp.address
    split <;> (try split) <;> simp
  · simp [cycle_pc, MicroOp.act, UnstableOp.finish, h.pc]
  · simp [h.cycles, Nat.add_assoc]
  · have hst : (cycle (.writeUnstable op) [] none w).stored = s.afterStore (op.address w) (op.value w) s.stored := by
      refine stored_memAfterWrite hm ?_ ?_
      · rw [cycle_mem]; simp [MicroOp.access, h.same.target, h.same.mem]
      · simp [h.same.profile]
    rw [had, hb]
    simp [State.view, hst, cycle_a, cycle_x, cycle_y, cycle_sp, cycle_fN, cycle_fV, cycle_fD, cycle_fI, cycle_fZ, cycle_fC, MicroOp.act, UnstableOp.finish,
      h.same.a, h.same.x, h.same.y, h.same.sp, h.same.fN, h.same.fV, h.same.fD, h.same.fI, h.same.fZ, h.same.fC]
    cases op <;> simp [UnstableOp.spAfter]
  · simp [cycle_halted, MicroOp.act, UnstableOp.finish, h.same.halted]
  · intro hs
    rw [cycle_fault]
    simp only [MicroOp.act, UnstableOp.finish, accessed_fault (h.same.noBusFault hs)]
    exact h.same.fault hs

/-- A read-modify-write operation writes neither memory, latches nor PC. -/
theorem rmwOp_mem (op : RmwOp) (m : Byte) (s : State) : (op.apply m s).mem = s.mem ∧ (op.apply m s).profile = s.profile ∧ (op.apply m s).ad = s.ad ∧ (op.apply m s).pc = s.pc ∧ (op.apply m s).halted = s.halted ∧ (op.apply m s).fault = s.fault ∧ (op.apply m s).dl = s.dl := by
  cases op <;> exact ⟨rfl, rfl, rfl, rfl, rfl, rfl, rfl⟩

/-- The byte written back depends on M and C alone. -/
theorem rmwOp_result_congr (op : RmwOp) (m : Byte) {p q : State} (h : p.fC = q.fC) : op.result m p = op.result m q := by
  cases op <;> simp [RmwOp.result, h]

/-- The second of two stores at one address is the one seen. -/
theorem afterStore_twice (s : State) (a : Addr) (u v : Byte) (c : Addr → Option Byte) :
    s.afterStore a v (s.afterStore a u c) = s.afterStore a v c := by
  funext b
  unfold State.afterStore
  split
  · cases c b <;> rfl
  · rfl

/-- The last three cycles of a read-modify-write (R73, R122). -/
theorem rmw_last {s w : State} {n k : Nat} {ea : Addr} {D : List PortEvent} (op : RmwOp) (h : At s w n k ea D)
    (hm : Memory.wf s.mem = true) :
    ∃ t f, runOps (rmwTail op) [] w = t ∧ t.ad = ea ∧ t.pc = s.pc + BitVec.ofNat 16 n ∧ t.cycles = s.cycles + (k + 3) ∧
      (∀ v, s.stored ea = some v → t.dl = v) ∧ t.busLatch = op.result t.dl s ∧
      (∃ rest, t.portLog = writeEvents (target s ea) t.busLatch ++ writeEvents (target s ea) t.dl ++ readEvents (target s ea) ++ D ++ rest) ∧
      t.view = { (op.apply t.dl (s.withFree f)).view with cells := s.afterStore ea t.busLatch s.stored } ∧ t.halted = s.halted ∧
      (s.noBusFault → t.fault = s.fault) := by
  obtain ⟨w1, hw1⟩ : ∃ x, x = cycle .readDL [.writeBack, .modify op] none w := ⟨_, rfl⟩
  obtain ⟨w2, hw2⟩ : ∃ x, x = cycle .writeBack [.modify op] none w1 := ⟨_, rfl⟩
  have s1 : Same s w1 := by rw [hw1]; exact h.same.trans (quiet_same rfl _ _ _)
  have hd1 : w1.dl = busValue ea w := by rw [hw1]; simp [cycle_dl, MicroOp.act, delivered, MicroOp.access, h.ad]
  have ha1 : w1.ad = ea := by rw [hw1]; simp [cycle_ad, MicroOp.act, h.ad]
  have hd2 : w2.dl = busValue ea w := by rw [hw2]; simp [cycle_dl, MicroOp.act, hd1]
  have ha2 : w2.ad = ea := by rw [hw2]; simp [cycle_ad, MicroOp.act, ha1]
  have hm2 : w2.mem = memAfterWrite (target s ea) (busValue ea w) s.mem := by
    rw [hw2, cycle_mem]; simp [MicroOp.access, ha1, hd1, s1.mem, s1.target]
  have hp2 : w2.profile = s.profile := by rw [hw2]; simp [s1.profile]
  have hC2 : w2.fC = s.fC := by rw [hw2]; simp [cycle_fC, MicroOp.act, s1.fC]
  have ht2 : ∀ a, target w2 a = target s a := by intro a; unfold target; rw [hp2]
  have agr : Agree (accessed (.modify op) none w2) (s.withFree (accessed (.modify op) none w2).freeIdx) := by
    constructor <;> simp only [accessed_a, accessed_x, accessed_y, accessed_sp, accessed_fN, accessed_fV, accessed_fD, accessed_fI, accessed_fZ, accessed_fC, accessed_profile, State.withFree] <;> (try exact hp2) <;>
      rw [hw2] <;> simp [cycle_a, cycle_x, cycle_y, cycle_sp, cycle_fN, cycle_fV, cycle_fD, cycle_fI, cycle_fZ, cycle_fC, MicroOp.act, s1.a, s1.x, s1.y, s1.sp, s1.fN, s1.fV, s1.fD, s1.fI, s1.fZ, s1.fC]
  have hdl : (cycle (.modify op) [] none w2).dl = busValue ea w := by simp [cycle_dl, MicroOp.act, rmwOp_mem, hd2]
  have hbl : (cycle (.modify op) [] none w2).busLatch = op.result (busValue ea w) s := by
    simp [cycle_busLatch, delivered, MicroOp.access, hd2, rmwOp_result_congr op _ hC2]
  refine ⟨cycle (.modify op) [] none w2, (accessed (.modify op) none w2).freeIdx, ?_, ?_, ?_, ?_, ?_, ?_, ?_, ?_, ?_, ?_⟩
  · rw [hw2, hw1]; simp [rmwTail, runOps, MicroOp.skipped, MicroOp.supply, MicroOp.fetches]
  · simp [cycle_ad, MicroOp.act, rmwOp_mem, ha2]
  · rw [hw2, hw1]; simp [cycle_pc, MicroOp.act, rmwOp_mem, h.pc]
  · rw [hw2, hw1]; simp [h.cycles, Nat.add_assoc]
  · intro v hv
    rw [hdl]
    exact h.same.busValue hv
  · rw [hbl, hdl]
  · obtain ⟨r, hr⟩ := h.log
    refine ⟨r, ?_⟩
    rw [hbl, hdl]
    have hl1 : w1.portLog = readEvents (target s ea) ++ w.portLog := by
      rw [hw1]; simp [cycle_portLog, accessed, MicroOp.access, busRead, h.ad, h.same.target]
    have hl2 : w2.portLog = writeEvents (target s ea) (busValue ea w) ++ w1.portLog := by
      rw [hw2]; simp [cycle_portLog, accessed, MicroOp.access, busWrite, ha1, hd1, s1.target]
    simp [cycle_portLog, accessed, MicroOp.access, busWrite, ha2, hd2, ht2, rmwOp_result_congr op _ hC2, hl2, hl1, hr]
  · have hc := rmwOp_congr op (busValue ea w) agr
    have hst2 : w2.stored = s.afterStore ea (busValue ea w) s.stored := stored_memAfterWrite hm hm2 hp2
    have hst : (cycle (.modify op) [] none w2).stored = s.afterStore ea (op.result (busValue ea w) s) s.stored := by
      have h3 := stored_memAfterWrite (s := w2) (t := cycle (.modify op) [] none w2) (a := ea) (v := op.result (busValue ea w) s) (m := w2.mem)
        (by rw [hm2]; exact memAfterWrite_wf _ _ hm)
        (by rw [cycle_mem]; simp [MicroOp.access, ha2, hd2, rmwOp_result_congr op _ hC2]) (by simp)
      have h4 : ∀ c, w2.afterStore ea (op.result (busValue ea w) s) c = s.afterStore ea (op.result (busValue ea w) s) c := by
        intro c; funext b; simp [State.afterStore, ht2]
      rw [h3, h4]
      show s.afterStore _ _ w2.stored = _
      rw [hst2, afterStore_twice]
    rw [hbl, hdl]
    simp only [State.view, hst]
    congr 1
    · simpa [cycle_a, MicroOp.act, hd2] using hc.a
    · simpa [cycle_x, MicroOp.act, hd2] using hc.x
    · simpa [cycle_y, MicroOp.act, hd2] using hc.y
    · simpa [cycle_sp, MicroOp.act, hd2] using hc.sp
    · simpa [cycle_fN, MicroOp.act, hd2] using hc.fN
    · simpa [cycle_fV, MicroOp.act, hd2] using hc.fV
    · simpa [cycle_fD, MicroOp.act, hd2] using hc.fD
    · simpa [cycle_fI, MicroOp.act, hd2] using hc.fI
    · simpa [cycle_fZ, MicroOp.act, hd2] using hc.fZ
    · simpa [cycle_fC, MicroOp.act, hd2] using hc.fC
  · rw [hw2]; simp [cycle_halted, MicroOp.act, rmwOp_mem, s1.halted]
  · intro hs
    have hb2 : w2.noBusFault := by unfold State.noBusFault; rw [hp2]; exact hs
    have hf2 : w2.fault = s.fault := by
      rw [hw2, cycle_fault]
      simp only [MicroOp.act, accessed_fault (s1.noBusFault hs)]
      exact s1.fault hs
    rw [cycle_fault]
    simp only [MicroOp.act, rmwOp_mem, accessed_fault hb2]
    exact hf2

/-- THE READ-MODIFY-WRITE CLASS (R73, R122, R128 to R143). -/
theorem rmw_class (i : Instr) (s : State) (op : RmwOp) (hw : i.wellFormed = true) (h0 : i.opcode ≠ 0)
    (hm : i.mode ∈ memoryModes) (hm2 : i.mode ≠ .zpy) (hc : i.accessClass = .rmw) (hmem : Memory.wf s.mem = true)
    (hs : sequenceOf s.profile.policy i.opcode = addrWrite i.mode ++ rmwTail op) :
    ∃ t f, exec i s = .next t ∧ Completes i s t ∧ OperandModified i s t ∧ t.busLatch = op.result t.dl s ∧
      t.view = { (op.apply t.dl (s.withFree f)).view with cells := s.afterStore t.ad t.busLatch s.stored } := by
  rw [exec_eq i s hw, hs]
  obtain ⟨w, ea, D, hr, hat, hea, _, _⟩ := addrWrite_at i s (rmwTail op) hw h0 hm
  obtain ⟨t, f, ht, had, hpc, hcy, hdl, hv, hlog, hview, hh, hf⟩ := rmw_last op hat hmem
  rw [hr, ht]
  have hrun : t = runOps (addrWrite i.mode ++ rmwTail op) (encode i) (startInstr s) := by rw [hr, ht]
  refine ⟨t, f, rfl, ⟨ends_of hrun (by obtain ⟨us, hus⟩ := addrWrite_opcode hm (rmwTail op); rw [hus]; exact remaining_opcode _ _) hh hf, hpc, ?_⟩, ?_, hv, by rw [had]; exact hview⟩
  · intro n hn
    rw [hcy]
    simp only [extraCycles, hc, Option.some.injEq] at hn
    subst hn
    cases hmo : i.mode <;> rw [hmo] at hm <;> (try (simp [memoryModes] at hm; done)) <;>
      first | exact absurd hmo hm2 | simp only [baseCycles_eq, hc, hmo, addrWriteCycles]
  · intro e he
    obtain ⟨rfl, rfl⟩ := hea e he
    exact ⟨had, hdl, hlog⟩

/-- THE UNSTABLE STORES (R340 to R344). -/
theorem unstable_class (i : Instr) (s : State) (op : UnstableOp) (hw : i.wellFormed = true) (h0 : i.opcode ≠ 0)
    (hm : i.mode ∈ memoryModes) (hc : i.accessClass = .write) (hmem : Memory.wf s.mem = true)
    (hs : sequenceOf s.profile.policy i.opcode = addrWrite i.mode ++ [.writeUnstable op]) :
    ∃ t, exec i s = .next t ∧ Completes i s t ∧
      t.view = { s.view with sp := op.spAfter s, cells := s.afterStore t.ad t.busLatch s.stored } ∧
      (∀ ea, effective i s = some ea → lo t.ad = lo ea) ∧
      (s.profile.storeModel = .formula →
        (∀ h, baseHigh i s = some h → t.busLatch = op.reg s &&& (h + 1)) ∧
        ∀ ea crossed, effective i s = some ea → crosses i s = some crossed →
          t.ad = if crossed then join t.busLatch (lo ea) else ea) := by
  rw [exec_eq i s hw, hs]
  obtain ⟨w, ea, D, hr, hat, hea, hcr, hdl⟩ := addrWrite_at i s [.writeUnstable op] hw h0 hm
  obtain ⟨t, ht, had, hv, hlo, hpc, hcy, hview, hh, hf⟩ := unstable_last op hat hmem
  rw [hr, ht]
  have hrun : t = runOps (addrWrite i.mode ++ [.writeUnstable op]) (encode i) (startInstr s) := by rw [hr, ht]
  refine ⟨t, rfl, ⟨ends_of hrun (by obtain ⟨us, hus⟩ := addrWrite_opcode hm [.writeUnstable op]; rw [hus]; exact remaining_opcode _ _) hh hf, hpc, ?_⟩, hview, ?_, ?_⟩
  · intro n hn
    rw [hcy]
    simp only [extraCycles, hc, Option.some.injEq] at hn
    subst hn
    cases hmo : i.mode <;> rw [hmo] at hm <;> (try (simp [memoryModes] at hm; done)) <;>
      simp only [baseCycles_eq, hc, hmo, addrWriteCycles]
  · intro e he
    obtain ⟨rfl, _⟩ := hea e he
    exact hlo
  · intro hfm
    have hfw : w.profile.storeModel = .formula := by rw [hat.same.profile]; exact hfm
    have hreg : op.reg w = op.reg s := by cases op <;> simp [UnstableOp.reg, hat.same.a, hat.same.x, hat.same.y]
    refine ⟨?_, ?_⟩
    · intro h hh'
      rw [hv]
      simp [UnstableOp.value, hfw, hreg, hdl h hh']
    · intro e c he hcc
      obtain ⟨rfl, _⟩ := hea e he
      rw [had, hv]
      simp only [UnstableOp.address, hfw, hcr c hcc, hat.ad]

/-- An implied operation writes neither memory nor PC. -/
theorem impliedOp_mem (op : ImpliedOp) (s : State) : (op.apply s).mem = s.mem ∧ (op.apply s).profile = s.profile ∧ (op.apply s).pc = s.pc ∧ (op.apply s).halted = s.halted ∧ (op.apply s).fault = s.fault := by
  cases op <;> exact ⟨rfl, rfl, rfl, rfl, rfl⟩

/-- THE IMPLIED AND ACCUMULATOR CLASS (R124). -/
theorem implied_class (i : Instr) (s : State) (op : ImpliedOp) (hw : i.wellFormed = true) (h0 : i.opcode ≠ 0)
    (hm : i.mode ∈ ([.imp, .acc] : List Mode)) (hc : i.accessClass = .implied)
    (hs : sequenceOf s.profile.policy i.opcode = impliedOps op) :
    ∃ t f, exec i s = .next t ∧ Completes i s t ∧
      t.portLog = readEvents (target s (s.pc + 1)) ++ readEvents (target s s.pc) ++ s.portLog ∧
      t.view = (op.apply (s.withFree f)).view := by
  rw [exec_eq i s hw, hs]
  have hl : opLength i.opcode = 1 := by
    rw [opLength_mode h0, show (opInfo i.opcode).mode = i.mode from rfl]
    cases hmo : i.mode <;> rw [hmo] at hm <;> first | rfl | (simp at hm)
  have henc : encode i = [i.opcode] := by rw [encode_eq i hw, hl]; rfl
  rw [henc]
  obtain ⟨w, hww⟩ : ∃ x, x = cycle .opcode [.implied op] (some i.opcode) (startInstr s) := ⟨_, rfl⟩
  have h1 : Same s w := by rw [hww]; exact (Same.start s).trans (quiet_same rfl _ _ _)
  have hrun : runOps (impliedOps op) [i.opcode] (startInstr s) = cycle (.implied op) [] none w := by
    rw [hww]; simp [impliedOps, runOps, MicroOp.skipped, MicroOp.supply, MicroOp.fetches]
  have hcg := impliedOp_congr op (agree_accessed h1 (.implied op) none)
  rw [hrun]
  refine ⟨_, (accessed (.implied op) none w).freeIdx, rfl, ⟨ends_of hrun.symm (remaining_opcode _ _) ?_ ?_, ?_, ?_⟩, ?_, ?_⟩
  · simp [cycle_halted, MicroOp.act, impliedOp_mem, h1.halted]
  · intro hb
    rw [cycle_fault]
    simp only [MicroOp.act, impliedOp_mem, accessed_fault (h1.noBusFault hb)]
    exact h1.fault hb
  · rw [hl, hww]; simp [cycle_pc, MicroOp.act, impliedOp_mem, startInstr]
  · intro n hn
    simp only [extraCycles, hc, Option.some.injEq] at hn
    subst hn
    rw [hww]
    cases hmo : i.mode <;> rw [hmo] at hm <;> simp [startInstr, baseCycles_eq, hc, hmo]
  · have hpc : w.pc = s.pc + 1 := by rw [hww]; simp [cycle_pc, MicroOp.act]
    have hlog : w.portLog = readEvents (target s s.pc) ++ s.portLog := by
      rw [hww, cycle_portLog]; simp [accessed, MicroOp.access, busRead, target]
    rw [cycle_portLog]
    simp [accessed, MicroOp.access, busRead, target, hpc, hlog, h1.profile]
  · refine view_of ⟨?_, ?_, ?_, ?_, ?_, ?_, ?_, ?_, ?_, ?_⟩ (stored_congr ?_ ?_)
    · simpa [cycle_a, MicroOp.act] using hcg.a
    · simpa [cycle_x, MicroOp.act] using hcg.x
    · simpa [cycle_y, MicroOp.act] using hcg.y
    · simpa [cycle_sp, MicroOp.act] using hcg.sp
    · simpa [cycle_fN, MicroOp.act] using hcg.fN
    · simpa [cycle_fV, MicroOp.act] using hcg.fV
    · simpa [cycle_fD, MicroOp.act] using hcg.fD
    · simpa [cycle_fI, MicroOp.act] using hcg.fI
    · simpa [cycle_fZ, MicroOp.act] using hcg.fZ
    · simpa [cycle_fC, MicroOp.act] using hcg.fC
    · rw [cycle_mem]; simp [MicroOp.access, impliedOp_mem, State.withFree, h1.mem]
    · simp [impliedOp_mem, State.withFree, h1.profile]

end Sys2Proof.Machine
end

