-- ==== Sys2Proof/Laws/Keeps.lean ====
section
/-! SUPPORT. What every operation on memory keeps: the canonical form, and cells inside the 64K space; from a bus write up
to a whole sequence, the debugger's write, the reset sequence and exec. A fault record that stands is kept by every cycle
but a trapped fetch. -/

namespace Sys2Proof.Machine

/-- Memory is in canonical form, with every cell in the 64K space (R61). -/
structure MemoryGood (m : List Host.Cell) : Prop where
  wf    : Memory.wf m = true
  small : ∀ c ∈ m, c.1 < 65536

/-- The memory of State.reset lists nothing. -/
theorem memoryGood_reset : MemoryGood State.reset.mem := ⟨rfl, fun _ h => nomatch h⟩

/-- A store into a cell of the 64K space keeps memory good. -/
theorem memoryGood_write {m : List Host.Cell} {a : Nat} (v : Byte) (h : MemoryGood m) (ha : a < 65536) :
    MemoryGood (Memory.write m a v) where
  wf := Memory.wf_write a v h.wf
  small := fun c hc => (Memory.mem_write hc).elim (h.small c) (fun he => he ▸ ha)

/-- Every cell an address resolves to lies in the 64K space. -/
theorem target_cell_lt (s : State) (a : Addr) : (target s a).cell < 65536 :=
  Nat.lt_of_le_of_lt (resolve_cell_le _ a) a.isLt

/-- A bus write keeps memory good. -/
theorem memoryGood_memAfterWrite {s : State} (a : Addr) (v : Byte) {m : List Host.Cell} (h : MemoryGood m) :
    MemoryGood (memAfterWrite (target s a) v m) := by
  unfold memAfterWrite
  split
  · exact memoryGood_write v h (target_cell_lt s a)
  all_goals exact h

/-- A bus write of the CPU keeps memory good. -/
theorem memoryGood_busWrite {s : State} (a : Addr) (v : Byte) (h : MemoryGood s.mem) :
    MemoryGood (busWrite a v s).mem :=
  memoryGood_memAfterWrite a v h

/-- A cycle keeps memory good. -/
theorem memoryGood_cycle (u : MicroOp) (us : List MicroOp) (supplied : Option Byte) {s : State}
    (h : MemoryGood s.mem) : MemoryGood (cycle u us supplied s).mem := by
  rw [cycle_mem]
  split
  · exact h
  · exact memoryGood_memAfterWrite _ _ h

/-- A sequence keeps memory good. -/
theorem memoryGood_runOps (ops : List MicroOp) (bytes : List Byte) {s : State} (h : MemoryGood s.mem) :
    MemoryGood (runOps ops bytes s).mem :=
  runOps_keeps (P := fun r => MemoryGood r.mem) (fun _ _ _ _ hr => memoryGood_cycle _ _ _ hr) ops bytes s h

/-- An instruction keeps memory good. -/
theorem memoryGood_exec {i : Instr} {s t : State} (hw : i.wellFormed = true) (h : MemoryGood s.mem)
    (ht : exec i s = .next t) : MemoryGood t.mem := by
  rw [exec_eq i s hw] at ht
  cases ht
  exact memoryGood_runOps _ _ h

/-- An interrupt entry keeps memory good. -/
theorem memoryGood_takeInterrupt {s : State} (h : MemoryGood s.mem) : MemoryGood (takeInterrupt s).mem :=
  memoryGood_runOps _ _ h

/-- The reset sequence keeps memory good. -/
theorem memoryGood_resetSequence {s : State} (h : MemoryGood s.mem) : MemoryGood (resetSequence s).mem :=
  memoryGood_runOps _ _ h

/-- An access keeps a fault record that stands (R375). -/
theorem faultAfter_some {s : State} {f : FaultRecord} (a : Addr) (h : s.fault = some f) : faultAfter a s = some f := by
  unfold faultAfter
  rw [h]
  split
  · contradiction
  · rfl

/-- No register action but that of a trapped fetch touches the fault record. -/
theorem act_fault {u : MicroOp} (hu : u ≠ .opcodeTrap) (v : Byte) (s : State) : (u.act v s).fault = s.fault := by
  cases u <;> first | rfl | exact absurd rfl hu | (rename_i op; cases op <;> rfl)

/-- A cycle other than a trapped fetch keeps a fault record that stands (R375). -/
theorem fault_cycle {u : MicroOp} (hu : u ≠ .opcodeTrap) (us : List MicroOp) (supplied : Option Byte) {s : State}
    {f : FaultRecord} (h : s.fault = some f) : (cycle u us supplied s).fault = some f := by
  have ha : (accessed u supplied s).fault = some f := by
    unfold accessed
    split <;> exact faultAfter_some _ h
  rw [cycle_fault, act_fault hu, ha]

/-- A sequence with no trapped fetch keeps a fault record that stands (R375). -/
theorem fault_runOps (ops : List MicroOp) (hops : ∀ u ∈ ops, u ≠ .opcodeTrap) (bytes : List Byte) {s : State}
    {f : FaultRecord} (h : s.fault = some f) : (runOps ops bytes s).fault = some f := by
  induction ops generalizing bytes s with
  | nil => exact h
  | cons u us ih =>
    have hus : ∀ w ∈ us, w ≠ .opcodeTrap := fun w hw => hops w (List.mem_cons_of_mem u hw)
    unfold runOps
    split
    · exact ih hus _ h
    · exact ih hus _ (fault_cycle (hops u List.mem_cons_self) _ _ h)

/-- Loading a byte from outside keeps memory good. -/
theorem memoryGood_loadByte (a : Addr) (v : Byte) {s : State} (h : MemoryGood s.mem) :
    MemoryGood (loadByte a v s).mem :=
  memoryGood_write v h (target_cell_lt s a)

/-- Loading bytes from outside keeps memory good. -/
theorem memoryGood_loadBytes (a : Addr) (vs : List Byte) {s : State} (h : MemoryGood s.mem) :
    MemoryGood (loadBytes a vs s).mem := by
  induction vs generalizing a s with
  | nil => exact h
  | cons v vs ih => exact ih _ (memoryGood_loadByte a v h)

/-- The debugger's write keeps memory good. -/
theorem memoryGood_debugWrite (a : Addr) (v : Byte) {s : State} (h : MemoryGood s.mem) :
    MemoryGood (debugWrite a v s).mem :=
  memoryGood_memAfterWrite a v h

end Sys2Proof.Machine
end

