-- ==== Sys2Proof/Laws/Rows.lean ====
section
/-! SUPPORT. The encoding lines of the rules (Sys2Proof/Safety.lean `rows…`) against the decoder's matrix and the
sequencer's table: what each class theorem of Sys2Proof/Laws/Classes.lean asks of an opcode. -/

namespace Sys2Proof.Machine

/-- The mode and cycles the decoder gives every opcode of a list of rows are those of its row. -/
def RowsRight (rows : Rows) : Prop :=
  ∀ r ∈ rows, (r.1, (opInfo r.1).mode, baseCycles (opInfo r.1).mnemonic (opInfo r.1).mode) ∈ rows

/-- Every opcode of the rows is of the class, in one of the modes, is not BRK, and runs the sequence of its mode. -/
def RowsRun (rows : Rows) (c : AccessClass) (modes : List Mode) (sequence : Mode → List MicroOp) : Prop :=
  ∀ r ∈ rows, r.1 ≠ 0 ∧ (opInfo r.1).mode ∈ modes ∧ accessClass (opInfo r.1).mnemonic (opInfo r.1).mode = c ∧
    emulatedSequence r.1 = sequence (opInfo r.1).mode

/-- No opcode of the rows is illegal. -/
def RowsLegal (rows : Rows) : Prop := ∀ r ∈ rows, illegal r.1 = false

/-- An instruction of one of the rows is right about its row. -/
theorem rowRight_of {rows : Rows} {i : Instr} (hr : RowsRight rows) (h : i.hasRow rows) : i.rowRight rows := by
  obtain ⟨_, r, hm, he⟩ := h
  have := hr r hm
  rw [he] at this
  exact this

/-- The sequence of a legal opcode does not depend on the policy. -/
theorem sequenceOf_legal {p : Policy} {op : Byte} (h : illegal op = false) : sequenceOf p op = emulatedSequence op := by
  simp [sequenceOf, h]

/-- Under `emulate` every opcode runs its own sequence. -/
theorem sequenceOf_emulate (op : Byte) : sequenceOf .emulate op = emulatedSequence op := by
  simp [sequenceOf]

/-- What a class theorem asks of an instruction, from its row. -/
theorem runs_of {rows : Rows} {c : AccessClass} {modes : List Mode} {sequence : Mode → List MicroOp} {i : Instr}
    {p : Policy} (hr : RowsRun rows c modes sequence) (h : i.hasRow rows) (hl : RowsLegal rows ∨ p = .emulate) :
    i.wellFormed = true ∧ i.opcode ≠ 0 ∧ i.mode ∈ modes ∧ i.accessClass = c ∧
      sequenceOf p i.opcode = sequence i.mode := by
  obtain ⟨hw, r, hm, he⟩ := h
  have h1 := hr r hm
  rw [he] at h1
  refine ⟨hw, h1.1, h1.2.1, h1.2.2.1, ?_⟩
  rcases hl with hl | rfl
  · rw [sequenceOf_legal (by rw [← he]; exact hl r hm)]; exact h1.2.2.2
  · rw [sequenceOf_emulate]; exact h1.2.2.2

/-- The modes of the read class (R122). -/
def readModes : List Mode := [.imm, .zp, .zpx, .zpy, .abs, .abx, .aby, .izx, .izy]

/-- The modes of the read-modify-write class (R122). -/
def modifyModes : List Mode := [.zp, .zpx, .abs, .abx, .aby, .izx, .izy]

/-! ### The rows -/

theorem rowsLda_run : RowsRun rowsLda .read readModes (fun m => readSeq m .lda) := by
  unfold RowsRun; decide

theorem rowsLdx_run : RowsRun rowsLdx .read readModes (fun m => readSeq m .ldx) := by
  unfold RowsRun; decide

theorem rowsLdy_run : RowsRun rowsLdy .read readModes (fun m => readSeq m .ldy) := by
  unfold RowsRun; decide

theorem rowsAdc_run : RowsRun rowsAdc .read readModes (fun m => readSeq m .adc) := by
  unfold RowsRun; decide

theorem rowsSbc_run : RowsRun rowsSbc .read readModes (fun m => readSeq m .sbc) := by
  unfold RowsRun; decide

theorem rowsAnd_run : RowsRun rowsAnd .read readModes (fun m => readSeq m .and) := by
  unfold RowsRun; decide

theorem rowsOra_run : RowsRun rowsOra .read readModes (fun m => readSeq m .ora) := by
  unfold RowsRun; decide

theorem rowsEor_run : RowsRun rowsEor .read readModes (fun m => readSeq m .eor) := by
  unfold RowsRun; decide

theorem rowsCmp_run : RowsRun rowsCmp .read readModes (fun m => readSeq m .cmp) := by
  unfold RowsRun; decide

theorem rowsCpx_run : RowsRun rowsCpx .read readModes (fun m => readSeq m .cpx) := by
  unfold RowsRun; decide

theorem rowsCpy_run : RowsRun rowsCpy .read readModes (fun m => readSeq m .cpy) := by
  unfold RowsRun; decide

theorem rowsBit_run : RowsRun rowsBit .read readModes (fun m => readSeq m .bit) := by
  unfold RowsRun; decide

theorem rowsLax_run : RowsRun rowsLax .read readModes (fun m => readSeq m .lax) := by
  unfold RowsRun; decide

theorem rowsLas_run : RowsRun rowsLas .read readModes (fun m => readSeq m .las) := by
  unfold RowsRun; decide

theorem rowsAnc_run : RowsRun rowsAnc .read readModes (fun m => readSeq m .anc) := by
  unfold RowsRun; decide

theorem rowsAlr_run : RowsRun rowsAlr .read readModes (fun m => readSeq m .alr) := by
  unfold RowsRun; decide

theorem rowsArr_run : RowsRun rowsArr .read readModes (fun m => readSeq m .arr) := by
  unfold RowsRun; decide

theorem rowsSbx_run : RowsRun rowsSbx .read readModes (fun m => readSeq m .sbx) := by
  unfold RowsRun; decide

theorem rowsUsbc_run : RowsRun rowsUsbc .read readModes (fun m => readSeq m .usbc) := by
  unfold RowsRun; decide

theorem rowsAne_run : RowsRun rowsAne .read readModes (fun m => readSeq m .ane) := by
  unfold RowsRun; decide

theorem rowsLxa_run : RowsRun rowsLxa .read readModes (fun m => readSeq m .lxa) := by
  unfold RowsRun; decide

theorem rowsUndocNop_read_run : RowsRun (rowsUndocNop.drop 6) .read readModes (fun m => readSeq m .nop) := by
  unfold RowsRun; decide

theorem rowsSta_run : RowsRun rowsSta .write memoryModes (fun m => addrWrite m ++ [.write .sta]) := by
  unfold RowsRun; decide

theorem rowsStx_run : RowsRun rowsStx .write memoryModes (fun m => addrWrite m ++ [.write .stx]) := by
  unfold RowsRun; decide

theorem rowsSty_run : RowsRun rowsSty .write memoryModes (fun m => addrWrite m ++ [.write .sty]) := by
  unfold RowsRun; decide

theorem rowsSax_run : RowsRun rowsSax .write memoryModes (fun m => addrWrite m ++ [.write .sax]) := by
  unfold RowsRun; decide

theorem rowsSha_run : RowsRun rowsSha .write memoryModes (fun m => addrWrite m ++ [.writeUnstable .sha]) := by
  unfold RowsRun; decide

theorem rowsShx_run : RowsRun rowsShx .write memoryModes (fun m => addrWrite m ++ [.writeUnstable .shx]) := by
  unfold RowsRun; decide

theorem rowsShy_run : RowsRun rowsShy .write memoryModes (fun m => addrWrite m ++ [.writeUnstable .shy]) := by
  unfold RowsRun; decide

theorem rowsTas_run : RowsRun rowsTas .write memoryModes (fun m => addrWrite m ++ [.writeUnstable .tas]) := by
  unfold RowsRun; decide

theorem rowsInc_run : RowsRun rowsInc .rmw modifyModes (fun m => addrWrite m ++ rmwTail .inc) := by
  unfold RowsRun; decide

theorem rowsDec_run : RowsRun rowsDec .rmw modifyModes (fun m => addrWrite m ++ rmwTail .dec) := by
  unfold RowsRun; decide

theorem rowsSlo_run : RowsRun rowsSlo .rmw modifyModes (fun m => addrWrite m ++ rmwTail .slo) := by
  unfold RowsRun; decide

theorem rowsRla_run : RowsRun rowsRla .rmw modifyModes (fun m => addrWrite m ++ rmwTail .rla) := by
  unfold RowsRun; decide

theorem rowsSre_run : RowsRun rowsSre .rmw modifyModes (fun m => addrWrite m ++ rmwTail .sre) := by
  unfold RowsRun; decide

theorem rowsRra_run : RowsRun rowsRra .rmw modifyModes (fun m => addrWrite m ++ rmwTail .rra) := by
  unfold RowsRun; decide

theorem rowsDcp_run : RowsRun rowsDcp .rmw modifyModes (fun m => addrWrite m ++ rmwTail .dcp) := by
  unfold RowsRun; decide

theorem rowsIsc_run : RowsRun rowsIsc .rmw modifyModes (fun m => addrWrite m ++ rmwTail .isc) := by
  unfold RowsRun; decide

theorem rowsAsl_memory_run : RowsRun (rowsAsl.drop 1) .rmw modifyModes (fun m => addrWrite m ++ rmwTail .asl) := by
  unfold RowsRun; decide

theorem rowsLsr_memory_run : RowsRun (rowsLsr.drop 1) .rmw modifyModes (fun m => addrWrite m ++ rmwTail .lsr) := by
  unfold RowsRun; decide

theorem rowsRol_memory_run : RowsRun (rowsRol.drop 1) .rmw modifyModes (fun m => addrWrite m ++ rmwTail .rol) := by
  unfold RowsRun; decide

theorem rowsRor_memory_run : RowsRun (rowsRor.drop 1) .rmw modifyModes (fun m => addrWrite m ++ rmwTail .ror) := by
  unfold RowsRun; decide

theorem rowsAsl_acc_run : RowsRun (rowsAsl.take 1) .implied [.acc] (fun _ => impliedOps .aslA) := by
  unfold RowsRun; decide

theorem rowsLsr_acc_run : RowsRun (rowsLsr.take 1) .implied [.acc] (fun _ => impliedOps .lsrA) := by
  unfold RowsRun; decide

theorem rowsRol_acc_run : RowsRun (rowsRol.take 1) .implied [.acc] (fun _ => impliedOps .rolA) := by
  unfold RowsRun; decide

theorem rowsRor_acc_run : RowsRun (rowsRor.take 1) .implied [.acc] (fun _ => impliedOps .rorA) := by
  unfold RowsRun; decide

theorem rowsTax_run : RowsRun rowsTax .implied [.imp] (fun _ => impliedOps .tax) := by
  unfold RowsRun; decide

theorem rowsTay_run : RowsRun rowsTay .implied [.imp] (fun _ => impliedOps .tay) := by
  unfold RowsRun; decide

theorem rowsTxa_run : RowsRun rowsTxa .implied [.imp] (fun _ => impliedOps .txa) := by
  unfold RowsRun; decide

theorem rowsTya_run : RowsRun rowsTya .implied [.imp] (fun _ => impliedOps .tya) := by
  unfold RowsRun; decide

theorem rowsTsx_run : RowsRun rowsTsx .implied [.imp] (fun _ => impliedOps .tsx) := by
  unfold RowsRun; decide

theorem rowsTxs_run : RowsRun rowsTxs .implied [.imp] (fun _ => impliedOps .txs) := by
  unfold RowsRun; decide

theorem rowsInx_run : RowsRun rowsInx .implied [.imp] (fun _ => impliedOps .inx) := by
  unfold RowsRun; decide

theorem rowsIny_run : RowsRun rowsIny .implied [.imp] (fun _ => impliedOps .iny) := by
  unfold RowsRun; decide

theorem rowsDex_run : RowsRun rowsDex .implied [.imp] (fun _ => impliedOps .dex) := by
  unfold RowsRun; decide

theorem rowsDey_run : RowsRun rowsDey .implied [.imp] (fun _ => impliedOps .dey) := by
  unfold RowsRun; decide

theorem rowsClc_run : RowsRun rowsClc .implied [.imp] (fun _ => impliedOps .clc) := by
  unfold RowsRun; decide

theorem rowsSec_run : RowsRun rowsSec .implied [.imp] (fun _ => impliedOps .sec) := by
  unfold RowsRun; decide

theorem rowsCli_run : RowsRun rowsCli .implied [.imp] (fun _ => impliedOps .cli) := by
  unfold RowsRun; decide

theorem rowsSei_run : RowsRun rowsSei .implied [.imp] (fun _ => impliedOps .sei) := by
  unfold RowsRun; decide

theorem rowsClv_run : RowsRun rowsClv .implied [.imp] (fun _ => impliedOps .clv) := by
  unfold RowsRun; decide

theorem rowsCld_run : RowsRun rowsCld .implied [.imp] (fun _ => impliedOps .cld) := by
  unfold RowsRun; decide

theorem rowsSed_run : RowsRun rowsSed .implied [.imp] (fun _ => impliedOps .sed) := by
  unfold RowsRun; decide

theorem rowsNop_run : RowsRun rowsNop .implied [.imp] (fun _ => impliedOps .nop) := by
  unfold RowsRun; decide

theorem rowsUndocNop_implied_run : RowsRun (rowsUndocNop.take 6) .implied [.imp] (fun _ => impliedOps .nop) := by
  unfold RowsRun; decide

theorem rowsLda_right : RowsRight rowsLda := by unfold RowsRight; decide
theorem rowsLdx_right : RowsRight rowsLdx := by unfold RowsRight; decide
theorem rowsLdy_right : RowsRight rowsLdy := by unfold RowsRight; decide
theorem rowsAdc_right : RowsRight rowsAdc := by unfold RowsRight; decide
theorem rowsSbc_right : RowsRight rowsSbc := by unfold RowsRight; decide
theorem rowsAnd_right : RowsRight rowsAnd := by unfold RowsRight; decide
theorem rowsOra_right : RowsRight rowsOra := by unfold RowsRight; decide
theorem rowsEor_right : RowsRight rowsEor := by unfold RowsRight; decide
theorem rowsCmp_right : RowsRight rowsCmp := by unfold RowsRight; decide
theorem rowsCpx_right : RowsRight rowsCpx := by unfold RowsRight; decide
theorem rowsCpy_right : RowsRight rowsCpy := by unfold RowsRight; decide
theorem rowsBit_right : RowsRight rowsBit := by unfold RowsRight; decide
theorem rowsLax_right : RowsRight rowsLax := by unfold RowsRight; decide
theorem rowsLas_right : RowsRight rowsLas := by unfold RowsRight; decide
theorem rowsAnc_right : RowsRight rowsAnc := by unfold RowsRight; decide
theorem rowsAlr_right : RowsRight rowsAlr := by unfold RowsRight; decide
theorem rowsArr_right : RowsRight rowsArr := by unfold RowsRight; decide
theorem rowsSbx_right : RowsRight rowsSbx := by unfold RowsRight; decide
theorem rowsUsbc_right : RowsRight rowsUsbc := by unfold RowsRight; decide
theorem rowsAne_right : RowsRight rowsAne := by unfold RowsRight; decide
theorem rowsLxa_right : RowsRight rowsLxa := by unfold RowsRight; decide
theorem rowsSta_right : RowsRight rowsSta := by unfold RowsRight; decide
theorem rowsStx_right : RowsRight rowsStx := by unfold RowsRight; decide
theorem rowsSty_right : RowsRight rowsSty := by unfold RowsRight; decide
theorem rowsSax_right : RowsRight rowsSax := by unfold RowsRight; decide
theorem rowsSha_right : RowsRight rowsSha := by unfold RowsRight; decide
theorem rowsShx_right : RowsRight rowsShx := by unfold RowsRight; decide
theorem rowsShy_right : RowsRight rowsShy := by unfold RowsRight; decide
theorem rowsTas_right : RowsRight rowsTas := by unfold RowsRight; decide
theorem rowsInc_right : RowsRight rowsInc := by unfold RowsRight; decide
theorem rowsDec_right : RowsRight rowsDec := by unfold RowsRight; decide
theorem rowsSlo_right : RowsRight rowsSlo := by unfold RowsRight; decide
theorem rowsRla_right : RowsRight rowsRla := by unfold RowsRight; decide
theorem rowsSre_right : RowsRight rowsSre := by unfold RowsRight; decide
theorem rowsRra_right : RowsRight rowsRra := by unfold RowsRight; decide
theorem rowsDcp_right : RowsRight rowsDcp := by unfold RowsRight; decide
theorem rowsIsc_right : RowsRight rowsIsc := by unfold RowsRight; decide
theorem rowsAsl_right : RowsRight rowsAsl := by unfold RowsRight; decide
theorem rowsLsr_right : RowsRight rowsLsr := by unfold RowsRight; decide
theorem rowsRol_right : RowsRight rowsRol := by unfold RowsRight; decide
theorem rowsRor_right : RowsRight rowsRor := by unfold RowsRight; decide
theorem rowsTax_right : RowsRight rowsTax := by unfold RowsRight; decide
theorem rowsTay_right : RowsRight rowsTay := by unfold RowsRight; decide
theorem rowsTxa_right : RowsRight rowsTxa := by unfold RowsRight; decide
theorem rowsTya_right : RowsRight rowsTya := by unfold RowsRight; decide
theorem rowsTsx_right : RowsRight rowsTsx := by unfold RowsRight; decide
theorem rowsTxs_right : RowsRight rowsTxs := by unfold RowsRight; decide
theorem rowsInx_right : RowsRight rowsInx := by unfold RowsRight; decide
theorem rowsIny_right : RowsRight rowsIny := by unfold RowsRight; decide
theorem rowsDex_right : RowsRight rowsDex := by unfold RowsRight; decide
theorem rowsDey_right : RowsRight rowsDey := by unfold RowsRight; decide
theorem rowsClc_right : RowsRight rowsClc := by unfold RowsRight; decide
theorem rowsSec_right : RowsRight rowsSec := by unfold RowsRight; decide
theorem rowsCli_right : RowsRight rowsCli := by unfold RowsRight; decide
theorem rowsSei_right : RowsRight rowsSei := by unfold RowsRight; decide
theorem rowsClv_right : RowsRight rowsClv := by unfold RowsRight; decide
theorem rowsCld_right : RowsRight rowsCld := by unfold RowsRight; decide
theorem rowsSed_right : RowsRight rowsSed := by unfold RowsRight; decide
theorem rowsNop_right : RowsRight rowsNop := by unfold RowsRight; decide
theorem rowsUndocNop_right : RowsRight rowsUndocNop := by unfold RowsRight; decide
theorem rowsPha_right : RowsRight rowsPha := by unfold RowsRight; decide
theorem rowsPhp_right : RowsRight rowsPhp := by unfold RowsRight; decide
theorem rowsPla_right : RowsRight rowsPla := by unfold RowsRight; decide
theorem rowsPlp_right : RowsRight rowsPlp := by unfold RowsRight; decide
theorem rowsBranch_right : RowsRight rowsBranch := by unfold RowsRight; decide
theorem rowsJam_right : RowsRight rowsJam := by unfold RowsRight; decide

theorem rowsLda_legal : RowsLegal rowsLda := by unfold RowsLegal; decide
theorem rowsLdx_legal : RowsLegal rowsLdx := by unfold RowsLegal; decide
theorem rowsLdy_legal : RowsLegal rowsLdy := by unfold RowsLegal; decide
theorem rowsAdc_legal : RowsLegal rowsAdc := by unfold RowsLegal; decide
theorem rowsSbc_legal : RowsLegal rowsSbc := by unfold RowsLegal; decide
theorem rowsAnd_legal : RowsLegal rowsAnd := by unfold RowsLegal; decide
theorem rowsOra_legal : RowsLegal rowsOra := by unfold RowsLegal; decide
theorem rowsEor_legal : RowsLegal rowsEor := by unfold RowsLegal; decide
theorem rowsCmp_legal : RowsLegal rowsCmp := by unfold RowsLegal; decide
theorem rowsCpx_legal : RowsLegal rowsCpx := by unfold RowsLegal; decide
theorem rowsCpy_legal : RowsLegal rowsCpy := by unfold RowsLegal; decide
theorem rowsBit_legal : RowsLegal rowsBit := by unfold RowsLegal; decide
theorem rowsSta_legal : RowsLegal rowsSta := by unfold RowsLegal; decide
theorem rowsStx_legal : RowsLegal rowsStx := by unfold RowsLegal; decide
theorem rowsSty_legal : RowsLegal rowsSty := by unfold RowsLegal; decide
theorem rowsInc_legal : RowsLegal rowsInc := by unfold RowsLegal; decide
theorem rowsDec_legal : RowsLegal rowsDec := by unfold RowsLegal; decide
theorem rowsAsl_legal : RowsLegal rowsAsl := by unfold RowsLegal; decide
theorem rowsLsr_legal : RowsLegal rowsLsr := by unfold RowsLegal; decide
theorem rowsRol_legal : RowsLegal rowsRol := by unfold RowsLegal; decide
theorem rowsRor_legal : RowsLegal rowsRor := by unfold RowsLegal; decide
theorem rowsTax_legal : RowsLegal rowsTax := by unfold RowsLegal; decide
theorem rowsTay_legal : RowsLegal rowsTay := by unfold RowsLegal; decide
theorem rowsTxa_legal : RowsLegal rowsTxa := by unfold RowsLegal; decide
theorem rowsTya_legal : RowsLegal rowsTya := by unfold RowsLegal; decide
theorem rowsTsx_legal : RowsLegal rowsTsx := by unfold RowsLegal; decide
theorem rowsTxs_legal : RowsLegal rowsTxs := by unfold RowsLegal; decide
theorem rowsInx_legal : RowsLegal rowsInx := by unfold RowsLegal; decide
theorem rowsIny_legal : RowsLegal rowsIny := by unfold RowsLegal; decide
theorem rowsDex_legal : RowsLegal rowsDex := by unfold RowsLegal; decide
theorem rowsDey_legal : RowsLegal rowsDey := by unfold RowsLegal; decide
theorem rowsClc_legal : RowsLegal rowsClc := by unfold RowsLegal; decide
theorem rowsSec_legal : RowsLegal rowsSec := by unfold RowsLegal; decide
theorem rowsCli_legal : RowsLegal rowsCli := by unfold RowsLegal; decide
theorem rowsSei_legal : RowsLegal rowsSei := by unfold RowsLegal; decide
theorem rowsClv_legal : RowsLegal rowsClv := by unfold RowsLegal; decide
theorem rowsCld_legal : RowsLegal rowsCld := by unfold RowsLegal; decide
theorem rowsSed_legal : RowsLegal rowsSed := by unfold RowsLegal; decide
theorem rowsNop_legal : RowsLegal rowsNop := by unfold RowsLegal; decide
theorem rowsPha_legal : RowsLegal rowsPha := by unfold RowsLegal; decide
theorem rowsPhp_legal : RowsLegal rowsPhp := by unfold RowsLegal; decide
theorem rowsPla_legal : RowsLegal rowsPla := by unfold RowsLegal; decide
theorem rowsPlp_legal : RowsLegal rowsPlp := by unfold RowsLegal; decide
theorem rowsBranch_legal : RowsLegal rowsBranch := by unfold RowsLegal; decide

/-! ### The classes, from a row -/

/-- The read class, from an instruction's row. -/
theorem read_row {rows : Rows} {op : ReadOp} {i : Instr} {s : State}
    (hrun : RowsRun rows .read readModes (fun m => readSeq m op)) (hright : RowsRight rows)
    (h : i.hasRow rows) (hl : RowsLegal rows ∨ s.profile.policy = .emulate) :
    i.rowRight rows ∧ ∃ t f, exec i s = .next t ∧ Completes i s t ∧ OperandRead i s t ∧
      t.view = (op.apply t.busLatch (s.withFree f)).view := by
  obtain ⟨hw, h0, hm, hc, hs⟩ := runs_of (p := s.profile.policy) hrun h hl
  exact ⟨rowRight_of hright h, read_class i s op hw h0 hm hc hs⟩

/-- The write class, from an instruction's row. -/
theorem write_row {rows : Rows} {op : StoreOp} {i : Instr} {s : State}
    (hrun : RowsRun rows .write memoryModes (fun m => addrWrite m ++ [.write op])) (hright : RowsRight rows)
    (h : i.hasRow rows) (hl : RowsLegal rows ∨ s.profile.policy = .emulate) (hmem : Memory.wf s.mem = true) :
    i.rowRight rows ∧ ∃ t, exec i s = .next t ∧ Completes i s t ∧ OperandWritten i s t ∧ t.busLatch = op.value s ∧
      t.view = { s.view with cells := s.afterStore t.ad (op.value s) s.stored } := by
  obtain ⟨hw, h0, hm, hc, hs⟩ := runs_of (p := s.profile.policy) hrun h hl
  exact ⟨rowRight_of hright h, write_class i s op hw h0 hm hc hmem hs⟩

/-- The read-modify-write class, from an instruction's row. -/
theorem modify_row {rows : Rows} {op : RmwOp} {i : Instr} {s : State}
    (hrun : RowsRun rows .rmw modifyModes (fun m => addrWrite m ++ rmwTail op))
    (h : i.hasRow rows) (hl : RowsLegal rows ∨ s.profile.policy = .emulate) (hmem : Memory.wf s.mem = true) :
    ∃ t f, exec i s = .next t ∧ Completes i s t ∧ OperandModified i s t ∧ t.busLatch = op.result t.dl s ∧
      t.view = { (op.apply t.dl (s.withFree f)).view with cells := s.afterStore t.ad t.busLatch s.stored } := by
  obtain ⟨hw, h0, hm, hc, hs⟩ := runs_of (p := s.profile.policy) hrun h hl
  refine rmw_class i s op hw h0 ?_ ?_ hc hmem hs
  · revert hm; generalize i.mode = m; revert m; decide
  · intro h; rw [h] at hm; revert hm; decide

/-- The implied class, from an instruction's row. -/
theorem implied_row {rows : Rows} {op : ImpliedOp} {i : Instr} {s : State} {ms : List Mode}
    (hrun : RowsRun rows .implied ms (fun _ => impliedOps op)) (hms : ∀ m ∈ ms, m ∈ ([.imp, .acc] : List Mode))
    (h : i.hasRow rows) (hl : RowsLegal rows ∨ s.profile.policy = .emulate) :
    ∃ t f, exec i s = .next t ∧ Completes i s t ∧
      t.portLog = readEvents (target s (s.pc + 1)) ++ readEvents (target s s.pc) ++ s.portLog ∧
      t.view = (op.apply (s.withFree f)).view := by
  obtain ⟨hw, h0, hm, hc, hs⟩ := runs_of (p := s.profile.policy) hrun h hl
  exact implied_class i s op hw h0 (hms _ hm) hc hs

/-- The unstable stores, from an instruction's row. -/
theorem unstable_row {rows : Rows} {op : UnstableOp} {i : Instr} {s : State}
    (hrun : RowsRun rows .write memoryModes (fun m => addrWrite m ++ [.writeUnstable op])) (hright : RowsRight rows)
    (h : i.hasRow rows) (hl : RowsLegal rows ∨ s.profile.policy = .emulate) (hmem : Memory.wf s.mem = true) :
    i.rowRight rows ∧ ∃ t, exec i s = .next t ∧ Completes i s t ∧
      t.view = { s.view with sp := op.spAfter s, cells := s.afterStore t.ad t.busLatch s.stored } ∧
      (∀ ea, effective i s = some ea → lo t.ad = lo ea) ∧
      (s.profile.storeModel = .formula →
        (∀ h, baseHigh i s = some h → t.busLatch = op.reg s &&& (h + 1)) ∧
        ∀ ea crossed, effective i s = some ea → crosses i s = some crossed →
          t.ad = if crossed then join t.busLatch (lo ea) else ea) := by
  obtain ⟨hw, h0, hm, hc, hs⟩ := runs_of (p := s.profile.policy) hrun h hl
  exact ⟨rowRight_of hright h, unstable_class i s op hw h0 hm hc hmem hs⟩

end Sys2Proof.Machine
end

