-- ==== Sys2Proof/Tests/Slice0.lean ====
section
/-! SUPPORT. The model's own tests: each check of well-formedness refuses an ill-formed term; every opcode of the matrix
decodes to its instruction; one step of each mnemonic gives what the spec's vectors say (95_test_vectors.md, whose
expected values are the spec's); and a witness for the hypotheses of every statement. -/

namespace Sys2Proof.Tests

open Sys2Proof Sys2Proof.Machine

/-! ### Helpers -/

/-- Every list of bytes decodes to its instruction, with nothing left. -/
def decodesTo (l : List (List Byte × Instr)) : Bool :=
  l.all fun p =>
    match decode p.1 with
    | .ok (i, rest) => decide (i = p.2) && rest.isEmpty
    | .error _ => false

/-- The profile of the vectors (95_test_vectors.md). -/
def vectorProfile : Profile :=
  { Config.defaultProfile with aneMagic := some 0xFF, lxaMagic := some 0xFF, storeModel := .formula }

/-- The reference state of the vectors, running. -/
def reference : State := { State.reset with profile := vectorProfile, runState := .running }

/-- Bytes stored in cells. -/
def withCells (cells : List (Addr × Byte)) (s : State) : State :=
  cells.foldl (fun s c => loadByte c.1 c.2 s) s

/-- A program at PC, and bytes stored in cells. -/
def placed (pc : Addr) (bytes : List Byte) (cells : List (Addr × Byte)) (s : State) : State :=
  withCells cells (loadBytes pc bytes { s with pc := pc })

/-- The state after one step. -/
def afterStep (s : State) : State :=
  match step s with
  | .next t => t
  | .fault _ => s
  | .refused _ => s

/-! ### Decoding: every opcode of the matrix (R90, R95) -/

/-- Row 0x of the opcode matrix R95. -/
theorem test_decode_row_0 : decodesTo
    [ ([0x00, 0x34], .brk 0x34),
      ([0x01, 0x34], .oraIzx 0x34),
      ([0x02], .jam 0x02),
      ([0x03, 0x34], .sloIzx 0x34),
      ([0x04, 0x34], .nopZp 0x04 0x34),
      ([0x05, 0x34], .oraZp 0x34),
      ([0x06, 0x34], .aslZp 0x34),
      ([0x07, 0x34], .sloZp 0x34),
      ([0x08], .php),
      ([0x09, 0x34], .oraImm 0x34),
      ([0x0A], .aslAcc),
      ([0x0B, 0x34], .ancImm 0x0B 0x34),
      ([0x0C, 0x34, 0x12], .nopAbs 0x1234),
      ([0x0D, 0x34, 0x12], .oraAbs 0x1234),
      ([0x0E, 0x34, 0x12], .aslAbs 0x1234),
      ([0x0F, 0x34, 0x12], .sloAbs 0x1234) ] = true := by decide

/-- Row 1x of the opcode matrix R95. -/
theorem test_decode_row_1 : decodesTo
    [ ([0x10, 0x34], .bpl 0x34),
      ([0x11, 0x34], .oraIzy 0x34),
      ([0x12], .jam 0x12),
      ([0x13, 0x34], .sloIzy 0x34),
      ([0x14, 0x34], .nopZpx 0x14 0x34),
      ([0x15, 0x34], .oraZpx 0x34),
      ([0x16, 0x34], .aslZpx 0x34),
      ([0x17, 0x34], .sloZpx 0x34),
      ([0x18], .clc),
      ([0x19, 0x34, 0x12], .oraAby 0x1234),
      ([0x1A], .nopImp 0x1A),
      ([0x1B, 0x34, 0x12], .sloAby 0x1234),
      ([0x1C, 0x34, 0x12], .nopAbx 0x1C 0x1234),
      ([0x1D, 0x34, 0x12], .oraAbx 0x1234),
      ([0x1E, 0x34, 0x12], .aslAbx 0x1234),
      ([0x1F, 0x34, 0x12], .sloAbx 0x1234) ] = true := by decide

/-- Row 2x of the opcode matrix R95. -/
theorem test_decode_row_2 : decodesTo
    [ ([0x20, 0x34, 0x12], .jsr 0x1234),
      ([0x21, 0x34], .andIzx 0x34),
      ([0x22], .jam 0x22),
      ([0x23, 0x34], .rlaIzx 0x34),
      ([0x24, 0x34], .bitZp 0x34),
      ([0x25, 0x34], .andZp 0x34),
      ([0x26, 0x34], .rolZp 0x34),
      ([0x27, 0x34], .rlaZp 0x34),
      ([0x28], .plp),
      ([0x29, 0x34], .andImm 0x34),
      ([0x2A], .rolAcc),
      ([0x2B, 0x34], .ancImm 0x2B 0x34),
      ([0x2C, 0x34, 0x12], .bitAbs 0x1234),
      ([0x2D, 0x34, 0x12], .andAbs 0x1234),
      ([0x2E, 0x34, 0x12], .rolAbs 0x1234),
      ([0x2F, 0x34, 0x12], .rlaAbs 0x1234) ] = true := by decide

/-- Row 3x of the opcode matrix R95. -/
theorem test_decode_row_3 : decodesTo
    [ ([0x30, 0x34], .bmi 0x34),
      ([0x31, 0x34], .andIzy 0x34),
      ([0x32], .jam 0x32),
      ([0x33, 0x34], .rlaIzy 0x34),
      ([0x34, 0x34], .nopZpx 0x34 0x34),
      ([0x35, 0x34], .andZpx 0x34),
      ([0x36, 0x34], .rolZpx 0x34),
      ([0x37, 0x34], .rlaZpx 0x34),
      ([0x38], .sec),
      ([0x39, 0x34, 0x12], .andAby 0x1234),
      ([0x3A], .nopImp 0x3A),
      ([0x3B, 0x34, 0x12], .rlaAby 0x1234),
      ([0x3C, 0x34, 0x12], .nopAbx 0x3C 0x1234),
      ([0x3D, 0x34, 0x12], .andAbx 0x1234),
      ([0x3E, 0x34, 0x12], .rolAbx 0x1234),
      ([0x3F, 0x34, 0x12], .rlaAbx 0x1234) ] = true := by decide

/-- Row 4x of the opcode matrix R95. -/
theorem test_decode_row_4 : decodesTo
    [ ([0x40], .rti),
      ([0x41, 0x34], .eorIzx 0x34),
      ([0x42], .jam 0x42),
      ([0x43, 0x34], .sreIzx 0x34),
      ([0x44, 0x34], .nopZp 0x44 0x34),
      ([0x45, 0x34], .eorZp 0x34),
      ([0x46, 0x34], .lsrZp 0x34),
      ([0x47, 0x34], .sreZp 0x34),
      ([0x48], .pha),
      ([0x49, 0x34], .eorImm 0x34),
      ([0x4A], .lsrAcc),
      ([0x4B, 0x34], .alrImm 0x34),
      ([0x4C, 0x34, 0x12], .jmpAbs 0x1234),
      ([0x4D, 0x34, 0x12], .eorAbs 0x1234),
      ([0x4E, 0x34, 0x12], .lsrAbs 0x1234),
      ([0x4F, 0x34, 0x12], .sreAbs 0x1234) ] = true := by decide

/-- Row 5x of the opcode matrix R95. -/
theorem test_decode_row_5 : decodesTo
    [ ([0x50, 0x34], .bvc 0x34),
      ([0x51, 0x34], .eorIzy 0x34),
      ([0x52], .jam 0x52),
      ([0x53, 0x34], .sreIzy 0x34),
      ([0x54, 0x34], .nopZpx 0x54 0x34),
      ([0x55, 0x34], .eorZpx 0x34),
      ([0x56, 0x34], .lsrZpx 0x34),
      ([0x57, 0x34], .sreZpx 0x34),
      ([0x58], .cli),
      ([0x59, 0x34, 0x12], .eorAby 0x1234),
      ([0x5A], .nopImp 0x5A),
      ([0x5B, 0x34, 0x12], .sreAby 0x1234),
      ([0x5C, 0x34, 0x12], .nopAbx 0x5C 0x1234),
      ([0x5D, 0x34, 0x12], .eorAbx 0x1234),
      ([0x5E, 0x34, 0x12], .lsrAbx 0x1234),
      ([0x5F, 0x34, 0x12], .sreAbx 0x1234) ] = true := by decide

/-- Row 6x of the opcode matrix R95. -/
theorem test_decode_row_6 : decodesTo
    [ ([0x60], .rts),
      ([0x61, 0x34], .adcIzx 0x34),
      ([0x62], .jam 0x62),
      ([0x63, 0x34], .rraIzx 0x34),
      ([0x64, 0x34], .nopZp 0x64 0x34),
      ([0x65, 0x34], .adcZp 0x34),
      ([0x66, 0x34], .rorZp 0x34),
      ([0x67, 0x34], .rraZp 0x34),
      ([0x68], .pla),
      ([0x69, 0x34], .adcImm 0x34),
      ([0x6A], .rorAcc),
      ([0x6B, 0x34], .arrImm 0x34),
      ([0x6C, 0x34, 0x12], .jmpInd 0x1234),
      ([0x6D, 0x34, 0x12], .adcAbs 0x1234),
      ([0x6E, 0x34, 0x12], .rorAbs 0x1234),
      ([0x6F, 0x34, 0x12], .rraAbs 0x1234) ] = true := by decide

/-- Row 7x of the opcode matrix R95. -/
theorem test_decode_row_7 : decodesTo
    [ ([0x70, 0x34], .bvs 0x34),
      ([0x71, 0x34], .adcIzy 0x34),
      ([0x72], .jam 0x72),
      ([0x73, 0x34], .rraIzy 0x34),
      ([0x74, 0x34], .nopZpx 0x74 0x34),
      ([0x75, 0x34], .adcZpx 0x34),
      ([0x76, 0x34], .rorZpx 0x34),
      ([0x77, 0x34], .rraZpx 0x34),
      ([0x78], .sei),
      ([0x79, 0x34, 0x12], .adcAby 0x1234),
      ([0x7A], .nopImp 0x7A),
      ([0x7B, 0x34, 0x12], .rraAby 0x1234),
      ([0x7C, 0x34, 0x12], .nopAbx 0x7C 0x1234),
      ([0x7D, 0x34, 0x12], .adcAbx 0x1234),
      ([0x7E, 0x34, 0x12], .rorAbx 0x1234),
      ([0x7F, 0x34, 0x12], .rraAbx 0x1234) ] = true := by decide

/-- Row 8x of the opcode matrix R95. -/
theorem test_decode_row_8 : decodesTo
    [ ([0x80, 0x34], .nopImm 0x80 0x34),
      ([0x81, 0x34], .staIzx 0x34),
      ([0x82, 0x34], .nopImm 0x82 0x34),
      ([0x83, 0x34], .saxIzx 0x34),
      ([0x84, 0x34], .styZp 0x34),
      ([0x85, 0x34], .staZp 0x34),
      ([0x86, 0x34], .stxZp 0x34),
      ([0x87, 0x34], .saxZp 0x34),
      ([0x88], .dey),
      ([0x89, 0x34], .nopImm 0x89 0x34),
      ([0x8A], .txa),
      ([0x8B, 0x34], .aneImm 0x34),
      ([0x8C, 0x34, 0x12], .styAbs 0x1234),
      ([0x8D, 0x34, 0x12], .staAbs 0x1234),
      ([0x8E, 0x34, 0x12], .stxAbs 0x1234),
      ([0x8F, 0x34, 0x12], .saxAbs 0x1234) ] = true := by decide

/-- Row 9x of the opcode matrix R95. -/
theorem test_decode_row_9 : decodesTo
    [ ([0x90, 0x34], .bcc 0x34),
      ([0x91, 0x34], .staIzy 0x34),
      ([0x92], .jam 0x92),
      ([0x93, 0x34], .shaIzy 0x34),
      ([0x94, 0x34], .styZpx 0x34),
      ([0x95, 0x34], .staZpx 0x34),
      ([0x96, 0x34], .stxZpy 0x34),
      ([0x97, 0x34], .saxZpy 0x34),
      ([0x98], .tya),
      ([0x99, 0x34, 0x12], .staAby 0x1234),
      ([0x9A], .txs),
      ([0x9B, 0x34, 0x12], .tasAby 0x1234),
      ([0x9C, 0x34, 0x12], .shyAbx 0x1234),
      ([0x9D, 0x34, 0x12], .staAbx 0x1234),
      ([0x9E, 0x34, 0x12], .shxAby 0x1234),
      ([0x9F, 0x34, 0x12], .shaAby 0x1234) ] = true := by decide

/-- Row Ax of the opcode matrix R95. -/
theorem test_decode_row_a : decodesTo
    [ ([0xA0, 0x34], .ldyImm 0x34),
      ([0xA1, 0x34], .ldaIzx 0x34),
      ([0xA2, 0x34], .ldxImm 0x34),
      ([0xA3, 0x34], .laxIzx 0x34),
      ([0xA4, 0x34], .ldyZp 0x34),
      ([0xA5, 0x34], .ldaZp 0x34),
      ([0xA6, 0x34], .ldxZp 0x34),
      ([0xA7, 0x34], .laxZp 0x34),
      ([0xA8], .tay),
      ([0xA9, 0x34], .ldaImm 0x34),
      ([0xAA], .tax),
      ([0xAB, 0x34], .lxaImm 0x34),
      ([0xAC, 0x34, 0x12], .ldyAbs 0x1234),
      ([0xAD, 0x34, 0x12], .ldaAbs 0x1234),
      ([0xAE, 0x34, 0x12], .ldxAbs 0x1234),
      ([0xAF, 0x34, 0x12], .laxAbs 0x1234) ] = true := by decide

/-- Row Bx of the opcode matrix R95. -/
theorem test_decode_row_b : decodesTo
    [ ([0xB0, 0x34], .bcs 0x34),
      ([0xB1, 0x34], .ldaIzy 0x34),
      ([0xB2], .jam 0xB2),
      ([0xB3, 0x34], .laxIzy 0x34),
      ([0xB4, 0x34], .ldyZpx 0x34),
      ([0xB5, 0x34], .ldaZpx 0x34),
      ([0xB6, 0x34], .ldxZpy 0x34),
      ([0xB7, 0x34], .laxZpy 0x34),
      ([0xB8], .clv),
      ([0xB9, 0x34, 0x12], .ldaAby 0x1234),
      ([0xBA], .tsx),
      ([0xBB, 0x34, 0x12], .lasAby 0x1234),
      ([0xBC, 0x34, 0x12], .ldyAbx 0x1234),
      ([0xBD, 0x34, 0x12], .ldaAbx 0x1234),
      ([0xBE, 0x34, 0x12], .ldxAby 0x1234),
      ([0xBF, 0x34, 0x12], .laxAby 0x1234) ] = true := by decide

/-- Row Cx of the opcode matrix R95. -/
theorem test_decode_row_c : decodesTo
    [ ([0xC0, 0x34], .cpyImm 0x34),
      ([0xC1, 0x34], .cmpIzx 0x34),
      ([0xC2, 0x34], .nopImm 0xC2 0x34),
      ([0xC3, 0x34], .dcpIzx 0x34),
      ([0xC4, 0x34], .cpyZp 0x34),
      ([0xC5, 0x34], .cmpZp 0x34),
      ([0xC6, 0x34], .decZp 0x34),
      ([0xC7, 0x34], .dcpZp 0x34),
      ([0xC8], .iny),
      ([0xC9, 0x34], .cmpImm 0x34),
      ([0xCA], .dex),
      ([0xCB, 0x34], .sbxImm 0x34),
      ([0xCC, 0x34, 0x12], .cpyAbs 0x1234),
      ([0xCD, 0x34, 0x12], .cmpAbs 0x1234),
      ([0xCE, 0x34, 0x12], .decAbs 0x1234),
      ([0xCF, 0x34, 0x12], .dcpAbs 0x1234) ] = true := by decide

/-- Row Dx of the opcode matrix R95. -/
theorem test_decode_row_d : decodesTo
    [ ([0xD0, 0x34], .bne 0x34),
      ([0xD1, 0x34], .cmpIzy 0x34),
      ([0xD2], .jam 0xD2),
      ([0xD3, 0x34], .dcpIzy 0x34),
      ([0xD4, 0x34], .nopZpx 0xD4 0x34),
      ([0xD5, 0x34], .cmpZpx 0x34),
      ([0xD6, 0x34], .decZpx 0x34),
      ([0xD7, 0x34], .dcpZpx 0x34),
      ([0xD8], .cld),
      ([0xD9, 0x34, 0x12], .cmpAby 0x1234),
      ([0xDA], .nopImp 0xDA),
      ([0xDB, 0x34, 0x12], .dcpAby 0x1234),
      ([0xDC, 0x34, 0x12], .nopAbx 0xDC 0x1234),
      ([0xDD, 0x34, 0x12], .cmpAbx 0x1234),
      ([0xDE, 0x34, 0x12], .decAbx 0x1234),
      ([0xDF, 0x34, 0x12], .dcpAbx 0x1234) ] = true := by decide

/-- Row Ex of the opcode matrix R95. -/
theorem test_decode_row_e : decodesTo
    [ ([0xE0, 0x34], .cpxImm 0x34),
      ([0xE1, 0x34], .sbcIzx 0x34),
      ([0xE2, 0x34], .nopImm 0xE2 0x34),
      ([0xE3, 0x34], .iscIzx 0x34),
      ([0xE4, 0x34], .cpxZp 0x34),
      ([0xE5, 0x34], .sbcZp 0x34),
      ([0xE6, 0x34], .incZp 0x34),
      ([0xE7, 0x34], .iscZp 0x34),
      ([0xE8], .inx),
      ([0xE9, 0x34], .sbcImm 0x34),
      ([0xEA], .nop),
      ([0xEB, 0x34], .usbcImm 0x34),
      ([0xEC, 0x34, 0x12], .cpxAbs 0x1234),
      ([0xED, 0x34, 0x12], .sbcAbs 0x1234),
      ([0xEE, 0x34, 0x12], .incAbs 0x1234),
      ([0xEF, 0x34, 0x12], .iscAbs 0x1234) ] = true := by decide

/-- Row Fx of the opcode matrix R95. -/
theorem test_decode_row_f : decodesTo
    [ ([0xF0, 0x34], .beq 0x34),
      ([0xF1, 0x34], .sbcIzy 0x34),
      ([0xF2], .jam 0xF2),
      ([0xF3, 0x34], .iscIzy 0x34),
      ([0xF4, 0x34], .nopZpx 0xF4 0x34),
      ([0xF5, 0x34], .sbcZpx 0x34),
      ([0xF6, 0x34], .incZpx 0x34),
      ([0xF7, 0x34], .iscZpx 0x34),
      ([0xF8], .sed),
      ([0xF9, 0x34, 0x12], .sbcAby 0x1234),
      ([0xFA], .nopImp 0xFA),
      ([0xFB, 0x34, 0x12], .iscAby 0x1234),
      ([0xFC, 0x34, 0x12], .nopAbx 0xFC 0x1234),
      ([0xFD, 0x34, 0x12], .sbcAbx 0x1234),
      ([0xFE, 0x34, 0x12], .incAbx 0x1234),
      ([0xFF, 0x34, 0x12], .iscAbx 0x1234) ] = true := by decide
/-! ### One step, from the vectors V2.1 to V2.5 -/

/-- V2.1 #1. -/
theorem test_lda_imm_zero :
    let t := afterStep (placed 0x8000 [0xA9, 0x00] []
      reference)
    t.a = 0x00 ∧ t.fZ = true ∧ t.fN = false ∧ t.cycles = 9 := by decide

/-- V2.1 #3. -/
theorem test_lda_zpx_wraps :
    let t := afterStep (placed 0x8000 [0xB5, 0xFF] [(0x0000, 0x42)]
      { reference with x := 0x01 })
    t.a = 0x42 ∧ t.cycles = 11 := by decide

/-- V2.1 #4. -/
theorem test_lda_abx_crosses :
    let t := afterStep (placed 0x8000 [0xBD, 0xF0, 0x02] [(0x0310, 0x99)]
      { reference with x := 0x20 })
    t.a = 0x99 ∧ t.fN = true ∧ t.cycles = 12 := by decide

/-- V2.1 #5. -/
theorem test_lda_izy_crosses :
    let t := afterStep (placed 0x8000 [0xB1, 0x20] [(0x0020, 0xF8), (0x0021, 0x02), (0x0308, 0x7E)]
      { reference with y := 0x10 })
    t.a = 0x7E ∧ t.cycles = 13 := by decide

/-- V2.1 #6. -/
theorem test_lda_izy_pointer_wraps :
    let t := afterStep (placed 0x8000 [0xB1, 0xFF] [(0x00FF, 0x00), (0x0000, 0x03), (0x0300, 0x55)]
      reference)
    t.a = 0x55 ∧ t.cycles = 12 := by decide

/-- V2.1 #7. -/
theorem test_lda_izx_pointer_wraps :
    let t := afterStep (placed 0x8000 [0xA1, 0xFE] [(0x00FF, 0x34), (0x0000, 0x02), (0x0234, 0x66)]
      { reference with x := 0x01 })
    t.a = 0x66 ∧ t.cycles = 13 := by decide

/-- V2.1 #8. -/
theorem test_ldx_zpy_wraps :
    let t := afterStep (placed 0x8000 [0xB6, 0xF0] [(0x0010, 0x80)]
      { reference with y := 0x20 })
    t.x = 0x80 ∧ t.fN = true ∧ t.cycles = 11 := by decide

/-- V2.1 #9. -/
theorem test_ldy_abs :
    let t := afterStep (placed 0x8000 [0xAC, 0x00, 0x03] [(0x0300, 0x01)]
      reference)
    t.y = 0x01 ∧ t.fN = false ∧ t.fZ = false ∧ t.cycles = 11 := by decide

/-- V2.1 #10. -/
theorem test_sta_abx :
    let t := afterStep (placed 0x8000 [0x9D, 0xFF, 0x02] []
      { reference with x := 0x01, a := 0x5A })
    t.stored 0x0300 = some 0x5A ∧ t.fZ = false ∧ t.cycles = 12 := by decide

/-- V2.1 #11. -/
theorem test_stx_zp :
    let t := afterStep (placed 0x8000 [0x86, 0x10] [(0x0010, 0x22)]
      reference)
    t.stored 0x0010 = some 0x00 ∧ t.fZ = false ∧ t.cycles = 10 := by decide

/-- V2.1 #12. -/
theorem test_sty_abs_mirror :
    let t := afterStep (placed 0x8000 [0x8C, 0x05, 0x08] []
      { reference with y := 0x77 })
    t.stored 0x0005 = some 0x77 ∧ t.cycles = 11 := by decide

/-- V2.1 #13. -/
theorem test_tay :
    let t := afterStep (placed 0x8000 [0xA8] []
      { reference with a := 0x80 })
    t.y = 0x80 ∧ t.fN = true ∧ t.cycles = 9 := by decide

/-- V2.1 #14. -/
theorem test_tax :
    let t := afterStep (placed 0x8000 [0xAA] []
      { reference with x := 0x33 })
    t.x = 0x00 ∧ t.fZ = true := by decide

/-- V2.1 #15. -/
theorem test_txa :
    let t := afterStep (placed 0x8000 [0x8A] []
      { reference with x := 0xFF })
    t.a = 0xFF ∧ t.fN = true := by decide

/-- V2.1 #16. -/
theorem test_tya :
    let t := afterStep (placed 0x8000 [0x98] []
      { reference with a := 0x55 })
    t.a = 0x00 ∧ t.fZ = true := by decide

/-- V2.1 #17. -/
theorem test_tsx :
    let t := afterStep (placed 0x8000 [0xBA] []
      reference)
    t.x = 0xFD ∧ t.fN = true := by decide

/-- V2.1 #18. -/
theorem test_txs :
    let t := afterStep (placed 0x8000 [0x9A] []
      reference)
    t.sp = 0x00 ∧ t.fZ = false ∧ t.fN = false := by decide

/-- V2.1 #19. -/
theorem test_sta_rom_ignored :
    let t := afterStep (placed 0x8000 [0x8D, 0x00, 0x80] []
      { reference with a := 0x12 })
    t.stored 0x8000 = some 0x8D ∧ t.fault = none ∧ t.cycles = 11 := by decide

/-- V2.2 #2. -/
theorem test_pha_wraps :
    let t := afterStep (placed 0x8000 [0x48] []
      { reference with sp := 0x00, a := 0x11 })
    t.stored 0x0100 = some 0x11 ∧ t.sp = 0xFF ∧ t.cycles = 10 := by decide

/-- V2.2 #4. -/
theorem test_php :
    let t := afterStep (placed 0x8000 [0x08] []
      { reference with fN := true, fV := true, fZ := true, fC := true })
    t.stored 0x01FD = some 0xF7 ∧ t.sp = 0xFC ∧ t.cycles = 10 := by decide

/-- V2.2 #5. -/
theorem test_pla_wraps :
    let t := afterStep (placed 0x8000 [0x68] [(0x0100, 0x80)]
      { reference with sp := 0xFF })
    t.a = 0x80 ∧ t.fN = true ∧ t.sp = 0x00 ∧ t.cycles = 11 := by decide

/-- V2.2 #7. -/
theorem test_plp :
    let t := afterStep (placed 0x8000 [0x28] [(0x01FE, 0xFF)]
      reference)
    pByte false t = 0xEF ∧ t.sp = 0xFE ∧ t.cycles = 11 := by decide

/-- V2.3 #1. -/
theorem test_adc_overflow :
    let t := afterStep (placed 0x8000 [0x69, 0x50] []
      { reference with a := 0x50 })
    t.a = 0xA0 ∧ t.fN = true ∧ t.fV = true ∧ t.fC = false ∧ t.cycles = 9 := by decide

/-- V2.3 #2. -/
theorem test_adc_carry :
    let t := afterStep (placed 0x8000 [0x69, 0x90] []
      { reference with a := 0x90 })
    t.a = 0x20 ∧ t.fV = true ∧ t.fC = true := by decide

/-- V2.3 #5. -/
theorem test_adc_decimal_ignored :
    let t := afterStep (placed 0x8000 [0x69, 0x05] []
      { reference with a := 0x09, fD := true })
    t.a = 0x0E := by decide

/-- V2.3 #6. -/
theorem test_sbc_borrow :
    let t := afterStep (placed 0x8000 [0xE9, 0x01] []
      { reference with fC := true })
    t.a = 0xFF ∧ t.fN = true ∧ t.fC = false ∧ t.fV = false := by decide

/-- V2.3 #7. -/
theorem test_sbc_overflow :
    let t := afterStep (placed 0x8000 [0xE9, 0x01] []
      { reference with a := 0x80, fC := true })
    t.a = 0x7F ∧ t.fV = true ∧ t.fC = true := by decide

/-- V2.3 #10. -/
theorem test_and :
    let t := afterStep (placed 0x8000 [0x29, 0x0F] []
      { reference with a := 0xF0 })
    t.a = 0x00 ∧ t.fZ = true := by decide

/-- V2.3 #11. -/
theorem test_ora :
    let t := afterStep (placed 0x8000 [0x09, 0x80] []
      { reference with a := 0x01 })
    t.a = 0x81 ∧ t.fN = true := by decide

/-- V2.3 #12. -/
theorem test_eor :
    let t := afterStep (placed 0x8000 [0x49, 0xFF] []
      { reference with a := 0xFF })
    t.a = 0x00 ∧ t.fZ = true := by decide

/-- V2.3 #14. -/
theorem test_cmp_below :
    let t := afterStep (placed 0x8000 [0xC9, 0x20] []
      { reference with a := 0x10 })
    t.fZ = false ∧ t.fC = false ∧ t.fN = true ∧ t.a = 0x10 := by decide

/-- V2.3 #15. -/
theorem test_cmp_signed :
    let t := afterStep (placed 0x8000 [0xC9, 0x01] []
      { reference with a := 0x80 })
    t.fC = true ∧ t.fN = false := by decide

/-- V2.3 #16. -/
theorem test_cpx_equal :
    let t := afterStep (placed 0x8000 [0xE0, 0x00] []
      reference)
    t.fZ = true ∧ t.fC = true := by decide

/-- V2.3 #17. -/
theorem test_cpy_below :
    let t := afterStep (placed 0x8000 [0xC0, 0xFF] []
      reference)
    t.fZ = false ∧ t.fC = false ∧ t.fN = false := by decide

/-- V2.3 #18. -/
theorem test_bit_zp :
    let t := afterStep (placed 0x8000 [0x24, 0x10] [(0x0010, 0xC0)]
      { reference with a := 0x01 })
    t.fN = true ∧ t.fV = true ∧ t.fZ = true ∧ t.a = 0x01 ∧ t.cycles = 10 := by decide

/-- V2.3 #20. -/
theorem test_inc_abs :
    let t := afterStep (placed 0x8000 [0xEE, 0xFF, 0x00] [(0x00FF, 0xFF)]
      reference)
    t.stored 0x00FF = some 0x00 ∧ t.fZ = true ∧ t.cycles = 13 := by decide

/-- V2.3 #21. -/
theorem test_dec_zp :
    let t := afterStep (placed 0x8000 [0xC6, 0x10] []
      reference)
    t.stored 0x0010 = some 0xFF ∧ t.fN = true ∧ t.cycles = 12 := by decide

/-- V2.3 #22. -/
theorem test_inx :
    let t := afterStep (placed 0x8000 [0xE8] []
      { reference with x := 0xFF })
    t.x = 0x00 ∧ t.fZ = true ∧ t.fC = false := by decide

/-- V2.3 #23. -/
theorem test_iny :
    let t := afterStep (placed 0x8000 [0xC8] []
      { reference with y := 0x7F })
    t.y = 0x80 ∧ t.fN = true := by decide

/-- V2.3 #24. -/
theorem test_dex :
    let t := afterStep (placed 0x8000 [0xCA] []
      reference)
    t.x = 0xFF ∧ t.fN = true := by decide

/-- V2.3 #25. -/
theorem test_dey :
    let t := afterStep (placed 0x8000 [0x88] []
      { reference with y := 0x01 })
    t.y = 0x00 ∧ t.fZ = true := by decide

/-- V2.3 #26. -/
theorem test_asl_a :
    let t := afterStep (placed 0x8000 [0x0A] []
      { reference with a := 0x81 })
    t.a = 0x02 ∧ t.fC = true ∧ t.fN = false := by decide

/-- V2.3 #27. -/
theorem test_asl_zp :
    let t := afterStep (placed 0x8000 [0x06, 0x10] [(0x0010, 0x40)]
      reference)
    t.stored 0x0010 = some 0x80 ∧ t.fN = true ∧ t.fC = false ∧ t.cycles = 12 := by decide

/-- V2.3 #28. -/
theorem test_lsr_a :
    let t := afterStep (placed 0x8000 [0x4A] []
      { reference with a := 0x01 })
    t.a = 0x00 ∧ t.fC = true ∧ t.fZ = true ∧ t.fN = false := by decide

/-- V2.3 #29. -/
theorem test_rol_a :
    let t := afterStep (placed 0x8000 [0x2A] []
      { reference with a := 0x80, fC := true })
    t.a = 0x01 ∧ t.fC = true := by decide

/-- V2.3 #30. -/
theorem test_ror_a :
    let t := afterStep (placed 0x8000 [0x6A] []
      { reference with a := 0x01, fC := true })
    t.a = 0x80 ∧ t.fC = true ∧ t.fN = true := by decide

/-- V2.3 #31. -/
theorem test_ror_abx :
    let t := afterStep (placed 0x8000 [0x7E, 0xF0, 0x02] [(0x0310, 0x02)]
      { reference with x := 0x20 })
    t.stored 0x0310 = some 0x01 ∧ t.cycles = 14 := by decide

/-- V2.4 #1. -/
theorem test_jmp_abs :
    let t := afterStep (placed 0x8000 [0x4C, 0x34, 0x12] []
      reference)
    t.pc = 0x1234 ∧ t.cycles = 10 := by decide

/-- V2.4 #2. -/
theorem test_jmp_ind_page :
    let t := afterStep (placed 0x8000 [0x6C, 0xFF, 0x02] [(0x02FF, 0x00), (0x0200, 0x90), (0x0300, 0x80)]
      reference)
    t.pc = 0x9000 ∧ t.cycles = 12 := by decide

/-- V2.4 #3. -/
theorem test_jsr :
    let t := afterStep (placed 0x8000 [0x20, 0x00, 0x90] []
      reference)
    t.stored 0x01FD = some 0x80 ∧ t.stored 0x01FC = some 0x02 ∧ t.sp = 0xFB ∧ t.pc = 0x9000 ∧ t.cycles = 13 := by decide

/-- V2.4 #4. -/
theorem test_rts :
    let t := afterStep (placed 0x9000 [0x60] [(0x01FC, 0x02), (0x01FD, 0x80)]
      { reference with sp := 0xFB })
    t.pc = 0x8003 ∧ t.sp = 0xFD ∧ t.cycles = 13 := by decide

/-- V2.4 #5. -/
theorem test_rti :
    let t := afterStep (placed 0x9100 [0x40] [(0x01FB, 0xC3), (0x01FC, 0x02), (0x01FD, 0x80)]
      { reference with sp := 0xFA })
    t.pc = 0x8002 ∧ t.sp = 0xFD ∧ pByte false t = 0xE3 ∧ t.cycles = 13 := by decide

/-- V2.4 #6. -/
theorem test_brk :
    let t := afterStep (placed 0x8000 [0x00, 0x12] [(0xFFFE, 0x00), (0xFFFF, 0x91)]
      { reference with fI := false, fC := true })
    t.stored 0x01FD = some 0x80 ∧ t.stored 0x01FC = some 0x02 ∧ t.stored 0x01FB = some 0x31 ∧ t.sp = 0xFA ∧ t.fI = true ∧ t.pc = 0x9100 ∧ t.cycles = 14 := by decide

/-- V2.4 #7. -/
theorem test_bne_not_taken :
    let t := afterStep (placed 0x8000 [0xD0, 0x05] []
      { reference with fZ := true })
    t.pc = 0x8002 ∧ t.cycles = 9 := by decide

/-- V2.4 #9. -/
theorem test_bne_crosses_back :
    let t := afterStep (placed 0x8100 [0xD0, 0xFC] []
      reference)
    t.pc = 0x80FE ∧ t.cycles = 11 := by decide

/-- V2.4 #10. -/
theorem test_beq_crosses :
    let t := afterStep (placed 0x80F0 [0xF0, 0x20] []
      { reference with fZ := true })
    t.pc = 0x8112 ∧ t.cycles = 11 := by decide

/-- V2.4 #11. -/
theorem test_bpl_back :
    let t := afterStep (placed 0x8000 [0x10, 0x80] []
      reference)
    t.pc = 0x7F82 ∧ t.cycles = 11 := by decide

/-- V2.4 #12. -/
theorem test_bmi :
    let t := afterStep (placed 0x8000 [0x30, 0x02] []
      { reference with fN := true })
    t.pc = 0x8004 ∧ t.cycles = 10 := by decide

/-- V2.4 #13. -/
theorem test_bvc_not_taken :
    let t := afterStep (placed 0x8000 [0x50, 0x02] []
      { reference with fV := true })
    t.pc = 0x8002 ∧ t.cycles = 9 := by decide

/-- V2.4 #14. -/
theorem test_bvs :
    let t := afterStep (placed 0x8000 [0x70, 0x02] []
      { reference with fV := true })
    t.pc = 0x8004 ∧ t.cycles = 10 := by decide

/-- V2.4 #15. -/
theorem test_bcc_itself :
    let t := afterStep (placed 0x8000 [0x90, 0xFE] []
      reference)
    t.pc = 0x8000 ∧ t.cycles = 10 := by decide

/-- V2.4 #16. -/
theorem test_bcs_not_taken :
    let t := afterStep (placed 0x8000 [0xB0, 0x02] []
      reference)
    t.pc = 0x8002 ∧ t.cycles = 9 := by decide

/-- V2.4 #17. -/
theorem test_clc :
    let t := afterStep (placed 0x8000 [0x18] []
      { reference with fC := true })
    t.fC = false := by decide

/-- V2.4 #17. -/
theorem test_sec :
    let t := afterStep (placed 0x8000 [0x38] []
      reference)
    t.fC = true := by decide

/-- V2.4 #18. -/
theorem test_cli :
    let t := afterStep (placed 0x8000 [0x58] []
      reference)
    t.fI = false := by decide

/-- V2.4 #18. -/
theorem test_sei :
    let t := afterStep (placed 0x8000 [0x78] []
      { reference with fI := false })
    t.fI = true := by decide

/-- V2.4 #19. -/
theorem test_clv :
    let t := afterStep (placed 0x8000 [0xB8] []
      { reference with fV := true })
    t.fV = false := by decide

/-- V2.4 #20. -/
theorem test_cld :
    let t := afterStep (placed 0x8000 [0xD8] []
      { reference with fD := true })
    t.fD = false := by decide

/-- V2.4 #20. -/
theorem test_sed :
    let t := afterStep (placed 0x8000 [0xF8] []
      reference)
    t.fD = true := by decide

/-- V2.4 #21. -/
theorem test_nop :
    let t := afterStep (placed 0x8000 [0xEA] []
      reference)
    t.pc = 0x8001 ∧ t.cycles = 9 := by decide

/-- V2.5 #1. -/
theorem test_nop_imm :
    let t := afterStep (placed 0x8000 [0x80, 0x12] []
      reference)
    t.pc = 0x8002 ∧ t.cycles = 9 := by decide

/-- V2.5 #2. -/
theorem test_nop_abx_crosses :
    let t := afterStep (placed 0x8000 [0x1C, 0xFF, 0x02] []
      { reference with x := 0x01 })
    t.pc = 0x8003 ∧ t.cycles = 12 := by decide

/-- V2.5 #3. -/
theorem test_slo :
    let t := afterStep (placed 0x8000 [0x07, 0x10] [(0x0010, 0x81)]
      { reference with a := 0x01 })
    t.stored 0x0010 = some 0x02 ∧ t.fC = true ∧ t.a = 0x03 ∧ t.cycles = 12 := by decide

/-- V2.5 #4. -/
theorem test_rla :
    let t := afterStep (placed 0x8000 [0x27, 0x10] [(0x0010, 0x80)]
      { reference with a := 0xFF, fC := true })
    t.stored 0x0010 = some 0x01 ∧ t.fC = true ∧ t.a = 0x01 := by decide

/-- V2.5 #5. -/
theorem test_sre :
    let t := afterStep (placed 0x8000 [0x47, 0x10] [(0x0010, 0x03)]
      { reference with a := 0xFF })
    t.stored 0x0010 = some 0x01 ∧ t.fC = true ∧ t.a = 0xFE ∧ t.fN = true := by decide

/-- V2.5 #6. -/
theorem test_rra :
    let t := afterStep (placed 0x8000 [0x67, 0x10] [(0x0010, 0x02)]
      { reference with a := 0x10, fC := true })
    t.stored 0x0010 = some 0x81 ∧ t.a = 0x91 ∧ t.fN = true ∧ t.fC = false := by decide

/-- V2.5 #7. -/
theorem test_sax :
    let t := afterStep (placed 0x8000 [0x87, 0x10] []
      { reference with a := 0xF0, x := 0x3C })
    t.stored 0x0010 = some 0x30 ∧ t.fZ = false ∧ t.cycles = 10 := by decide

/-- V2.5 #8. -/
theorem test_lax :
    let t := afterStep (placed 0x8000 [0xA7, 0x10] [(0x0010, 0x80)]
      reference)
    t.a = 0x80 ∧ t.x = 0x80 ∧ t.fN = true := by decide

/-- V2.5 #9. -/
theorem test_dcp :
    let t := afterStep (placed 0x8000 [0xC7, 0x10] [(0x0010, 0x11)]
      { reference with a := 0x10 })
    t.stored 0x0010 = some 0x10 ∧ t.fZ = true ∧ t.fC = true := by decide

/-- V2.5 #10. -/
theorem test_isc :
    let t := afterStep (placed 0x8000 [0xE7, 0x10] [(0x0010, 0xFF)]
      { reference with a := 0x05, fC := true })
    t.stored 0x0010 = some 0x00 ∧ t.a = 0x05 ∧ t.fC = true := by decide

/-- V2.5 #11. -/
theorem test_anc :
    let t := afterStep (placed 0x8000 [0x0B, 0x80] []
      { reference with a := 0xFF })
    t.a = 0x80 ∧ t.fN = true ∧ t.fC = true := by decide

/-- V2.5 #12. -/
theorem test_alr :
    let t := afterStep (placed 0x8000 [0x4B, 0x03] []
      { reference with a := 0xFF })
    t.a = 0x01 ∧ t.fC = true := by decide

/-- V2.5 #14. -/
theorem test_arr :
    let t := afterStep (placed 0x8000 [0x6B, 0xFF] []
      { reference with a := 0x40, fC := true })
    t.a = 0xA0 ∧ t.fN = true ∧ t.fC = false ∧ t.fV = true := by decide

/-- V2.5 #16. -/
theorem test_sbx :
    let t := afterStep (placed 0x8000 [0xCB, 0x05] []
      { reference with a := 0x0F, x := 0x03, fC := true })
    t.x = 0xFE ∧ t.fN = true ∧ t.fC = false := by decide

/-- V2.5 #17. -/
theorem test_usbc :
    let t := afterStep (placed 0x8000 [0xEB, 0x01] []
      { reference with fC := true })
    t.a = 0xFF ∧ t.fN = true ∧ t.fC = false := by decide

/-- V2.5 #18. -/
theorem test_las :
    let t := afterStep (placed 0x8000 [0xBB, 0x00, 0x03] [(0x0300, 0xF0)]
      reference)
    t.a = 0xF0 ∧ t.x = 0xF0 ∧ t.sp = 0xF0 ∧ t.fN = true ∧ t.cycles = 11 := by decide

/-- V2.5 #19. -/
theorem test_ane :
    let t := afterStep (placed 0x8000 [0x8B, 0x0F] []
      { reference with x := 0x3C })
    t.a = 0x0C := by decide

/-- V2.5 #22. -/
theorem test_lxa :
    let t := afterStep (placed 0x8000 [0xAB, 0x5A] []
      reference)
    t.a = 0x5A ∧ t.x = 0x5A := by decide

/-- V2.5 #24. -/
theorem test_shx_crosses :
    let t := afterStep (placed 0x8000 [0x9E, 0xF8, 0x04] []
      { reference with x := 0x01, y := 0x10 })
    t.stored 0x0108 = some 0x01 ∧ t.cycles = 12 := by decide

/-- V2.5 #25. -/
theorem test_shy :
    let t := afterStep (placed 0x8000 [0x9C, 0x00, 0x05] []
      { reference with x := 0x01, y := 0xFF })
    t.stored 0x0501 = some 0x06 ∧ t.cycles = 12 := by decide

/-- V2.5 #26. -/
theorem test_sha :
    let t := afterStep (placed 0x8000 [0x9F, 0x00, 0x03] []
      { reference with a := 0xFF, x := 0xF5, y := 0x01 })
    t.stored 0x0301 = some 0x04 := by decide

/-- V2.5 #27. -/
theorem test_tas :
    let t := afterStep (placed 0x8000 [0x9B, 0x00, 0x03] [(0x0301, 0x55)]
      { reference with a := 0xF0, x := 0x3F, y := 0x01 })
    t.sp = 0x30 ∧ t.stored 0x0301 = some 0x00 := by decide

/-- V2.5 #29. -/
theorem test_jam :
    let t := afterStep (placed 0x8000 [0x02] []
      reference)
    t.pc = 0x8001 ∧ t.halted = true ∧ t.cycles = 8 := by decide
/-! ### More single steps: interrupts, faults, commands -/

/-- The instruction's last poll chose an NMI: the entry (V1.7, cycles 12 to 18). -/
theorem test_nmi_entry :
    let t := afterStep (placed 0x8003 [] [(0xFFFA, 0x00), (0xFFFB, 0x90)]
      { reference with a := 0x80, fN := true, nmiPending := true, nmiPrev := true, intNext := .nmi, cycles := 11 })
    t.pc = 0x9000 ∧ t.sp = 0xFA ∧ t.stored 0x01FD = some 0x80 ∧ t.stored 0x01FC = some 0x03 ∧
      t.stored 0x01FB = some 0xA4 ∧ t.fI = true ∧ t.nmiPending = false ∧ t.intNext = .none ∧ t.cycles = 18 := by decide

/-- An NMI edge in BRK's T3 takes the vector; BRK's pushed B stays 1 (V2.7 #1). -/
theorem test_nmi_hijacks_brk :
    let t := afterStep (placed 0x8000 [0x00, 0x12] [(0xFFFA, 0x00), (0xFFFB, 0x90), (0xFFFE, 0x00), (0xFFFF, 0x91)]
      { reference with
        fI := false, inputs := [⟨0, false, [], false⟩, ⟨0, false, [], false⟩, ⟨0, true, [], false⟩] })
    t.pc = 0x9000 ∧ t.stored 0x01FB = some 0x30 ∧ t.fI = true ∧ t.nmiPending = false := by decide

/-- An NMI edge in T5 is too late, and stays pending (V2.7 #2). -/
theorem test_nmi_too_late_for_brk :
    let t := afterStep (placed 0x8000 [0x00, 0x12] [(0xFFFA, 0x00), (0xFFFB, 0x90), (0xFFFE, 0x00), (0xFFFF, 0x91)]
      { reference with
        fI := false
        inputs := [⟨0, false, [], false⟩, ⟨0, false, [], false⟩, ⟨0, false, [], false⟩, ⟨0, false, [], false⟩,
          ⟨0, true, [], false⟩] })
    t.pc = 0x9100 ∧ t.nmiPending = true ∧ t.intNext = .none := by decide

/-- CLI polls with the I before it (V2.7 #3). -/
theorem test_cli_polls_before :
    let t := afterStep (placed 0x8000 [0x58] []
      { reference with
        profile := { vectorProfile with irqSources := [1] }, irqAsserting := [1], irqSampled := true })
    t.intNext = .none ∧ t.fI = false := by decide

/-- SEI polls with the I before it (V2.7 #4). -/
theorem test_sei_polls_before :
    let t := afterStep (placed 0x8000 [0x78] []
      { reference with
        profile := { vectorProfile with irqSources := [1] }, irqAsserting := [1], irqSampled := true, fI := false })
    t.intNext = .irq ∧ t.fI = true := by decide

/-- A taken branch that stays in its page polls at T1 only (V2.7 #5). -/
theorem test_taken_branch_delays :
    let t := afterStep (placed 0x8000 [0xF0, 0x02] []
      { reference with fZ := true, inputs := [⟨0, false, [], false⟩, ⟨0, true, [], false⟩] })
    t.pc = 0x8004 ∧ t.intNext = .none ∧ t.nmiPending = true := by decide

/-- The instruction of the contrast polls at its T2 (V2.7 #5). -/
theorem test_load_polls_penultimate :
    let t := afterStep (placed 0x8000 [0xA5, 0x10] []
      { reference with inputs := [⟨0, false, [], false⟩, ⟨0, true, [], false⟩] })
    t.intNext = .nmi ∧ t.pc = 0x8002 := by decide

/-- The register sees two writes of INC (V2.6 #4): a read, the write-back, the write. -/
theorem test_inc_writes_twice :
    let t := afterStep (placed 0x8000 [0xEE, 0x00, 0x20] [] reference)
    (t.portLog.map fun e => (e.reg, e.data.isSome)) = [(0, true), (0, true), (0, false)] := by decide

/-- An illegal opcode under trap (V2.8 #1). -/
theorem test_illegal_opcode_traps :
    let t := afterStep (placed 0x8000 [0xA7, 0x10] []
      { reference with profile := { vectorProfile with policy := .trap } })
    t.pc = 0x8000 ∧ t.runState = .paused ∧ t.stopReason = .fault ∧
      t.fault = some ⟨.hardwareFault, 1, 0x8000, 0xA7, 8⟩ := by decide

/-- A BusFault drops the write and is taken at the boundary (V2.8 #3). -/
theorem test_bus_fault :
    let t := afterStep (placed 0x8000 [0x8D, 0x00, 0x50] []
      { reference with
        a := 0x12
        profile := { vectorProfile with
          map := [⟨0x5000, 0x5000, 1, .outOfRange⟩, ⟨0x6000, 0xFFFF, 0xA000, .rom⟩] } })
    t.pc = 0x8003 ∧ t.cycles = 11 ∧ t.runState = .paused ∧ t.fault = some ⟨.hardwareFault, 2, 0x5000, 0x8D, 11⟩ := by
  decide

/-- A profile as in V2.8 #4, valid. -/
def rawProfile : RawProfile :=
  ⟨3, 1, "emulate", some 0xFFFA, some 0xFFFC, some 0xFFFE, Config.defaultMap, .nmi, [], none, none, .any⟩

/-- The four causes of ConfigurationError (V2.8 #4). -/
theorem test_profile_causes :
    validate { rawProfile with ratioP := 0 } = .error .badRatio ∧
    validate { rawProfile with policy := "quirky" } = .error .badPolicy ∧
    validate { rawProfile with map := [⟨0x0000, 0x1FFF, 3, .ram⟩] } = .error .badMirroring ∧
    validate { rawProfile with vecIrq := none } = .error .badVectors ∧
    (Cause.code .badRatio, Cause.code .badPolicy, Cause.code .badMirroring, Cause.code .badVectors) =
      (16, 17, 18, 19) := by decide

/-- A command that needs Paused, while running, and an unknown breakpoint id (V2.8 #5). -/
theorem test_misuse_codes :
    respond .reset reference = .misuse 32 ∧ respond (.removeBreakpoint 99) reference = .misuse 33 ∧
      respond .pause { reference with runState := .paused } = .accepted := by decide

/-- `set_registers` (V2.9 #1). -/
theorem test_set_registers :
    let t := afterStep { reference with
      runState := .paused, commands := [some (.setRegisters ⟨0x01, 0x02, 0x03, 0x80, 0x8100, 0xFF⟩)] }
    snapshot t = ⟨0x01, 0x02, 0x03, 0x80, 0x8100, 0xEF⟩ ∧ t.cycles = 7 := by decide

/-- `write` to RAM and to ROM (V2.9 #2). -/
theorem test_debugger_write :
    let t := afterStep { reference with runState := .paused, commands := [some (.write 0x0010 0xAA)] }
    let u := afterStep { reference with runState := .paused, commands := [some (.write 0x8000 0xAA)] }
    t.stored 0x0010 = some 0xAA ∧ t.busLatch = reference.busLatch ∧ u.stored 0x8000 = some 0x00 ∧ u.fault = none := by
  decide

/-- A step stops after the entry (V2.9 #3). -/
theorem test_step_runs_the_entry :
    let t := afterStep (placed 0x8003 [] [(0xFFFA, 0x00), (0xFFFB, 0x90)]
      { reference with nmiPending := true, intNext := .nmi, runState := .paused, commands := [some .stepInstruction] })
    t.pc = 0x9000 ∧ t.runState = .paused ∧ t.stopReason = .stepDone := by decide

/-- A frame event inside an instruction stops the frame step after it (V2.9 #4). -/
theorem test_step_frame_stops :
    let t := afterStep (placed 0x8000 [0xAD, 0x00, 0x03] []
      { reference with
        runState := .steppingFrame
        inputs := [⟨0, false, [], false⟩, ⟨0, false, [], false⟩, ⟨0, false, [], true⟩] })
    t.pc = 0x8003 ∧ t.runState = .paused ∧ t.stopReason = .frameDone := by decide

/-- A breakpoint at the next PC stops the run (V1.3 #1). -/
theorem test_breakpoint_stops :
    let t := afterStep (placed 0x8007 [0x65, 0x10, 0xCA] []
      { reference with breakpoints := [⟨1, 0x8009, true, none⟩], nextBreakpointId := 2 })
    t.pc = 0x8009 ∧ t.runState = .paused ∧ t.stopReason = .breakpoint 1 := by decide

/-- The reset command (V2.10 #2). -/
theorem test_reset_command :
    let t := afterStep (placed 0x1234 [] [(0xFFFC, 0x00), (0xFFFD, 0x80), (0x0010, 0x55)]
      { reference with
        a := 0x12, sp := 0xF0, fD := true, fC := true, fI := false, halted := true, seq := .halted
        runState := .paused, commands := [some .reset] })
    t.a = 0x12 ∧ t.sp = 0xED ∧ t.fD = true ∧ t.fC = true ∧ t.fI = true ∧ t.pc = 0x8000 ∧
      t.stored 0x0010 = some 0x55 ∧ t.halted = false ∧ t.cycles = 14 := by decide

/-- After a reset `nmi_pending` is 0 and `fault` is none (R44), here with the NMI line rising in the sequence and out-of-range
reads at PC and in the vector. -/
theorem test_reset_leaves_nothing_pending :
    let t := afterStep { reference with
      pc := 0x5000, runState := .paused, commands := [some .reset]
      inputs := [⟨0, false, [], false⟩, ⟨0, true, [], false⟩]
      profile := { vectorProfile with map := [⟨0x5000, 0xFFFF, 1, .outOfRange⟩] } }
    t.nmiPending = false ∧ t.nmiPrev = true ∧ t.fault = none ∧ t.stopReason = .none ∧ t.cycles = 14 := by decide

/-- The power-on values that R45 reports, through the reset sequence: S is $FD, P is $24 as a snapshot, PC the vector's word. -/
theorem test_reported_power_on :
    let t := resetSequence (powerOnWith Config.defaultProfile .reported [(0xFFFD, 0x80)] [])
    snapshot t = ⟨0x00, 0x00, 0x00, 0xFD, 0x8000, 0x24⟩ := by decide

/-- At power-on `nmi_prev` and `irq_sampled` are the inputs of the first cycle (R44), for either input of the PPU's line. -/
theorem test_power_on_samples_the_inputs :
    let nmi := powerOnWith { Config.defaultProfile with irqSources := [1] } .reported [] [⟨0, true, [1], false⟩]
    let irq := powerOnWith { Config.defaultProfile with ppuInput := .irq } .reported [] [⟨0, true, [1], false⟩]
    nmi.nmiPrev = true ∧ nmi.irqSampled = true ∧ irq.nmiPrev = false ∧ irq.irqSampled = true := by decide

/-- Of a bad ratio and missing vectors the ratio is reported (log 36). -/
theorem test_first_cause : validate { rawProfile with ratioP := 0, vecNmi := none } = .error .badRatio := by decide

/-- Disassembly and its re-encoding (V1.1). -/
theorem test_disassembly :
    let bne := disassemble (fun a => if a = 0x8005 then 0xD0 else 0xF9) 0x8005
    let lax := disassemble (fun a => if a = 0x8000 then 0xA7 else 0x10) 0x8000
    bne.mnemonic = "BNE".toList ∧ bne.operand = "$8000".toList ∧
      reencode bne.mnemonic bne.operand 0x8005 = some [0xD0, 0xF9] ∧
      lax.mnemonic = "???".toList ∧ lax.operand = [] ∧ lax.length = 2 := by decide

/-- The clock with ratio 16/5 over three cycles (V1.2). -/
theorem test_ratio :
    let t := runCycles 3 (placed 0x8000 [0xEA, 0xEA] []
      { reference with profile := { vectorProfile with ratioP := 16, ratioQ := 5 }, ppuSteps := 0 })
    t.ppuSteps = 9 ∧ t.ppuAcc = 3 := by decide

/-! ### Well-formedness: each check refuses an ill-formed term -/

theorem test_ill_formed_jam : (Instr.jam 0x00).wellFormed = false := by decide
theorem test_ill_formed_nopImp : (Instr.nopImp 0xEA).wellFormed = false := by decide
theorem test_ill_formed_nopImm : (Instr.nopImm 0xA9 0x00).wellFormed = false := by decide
theorem test_ill_formed_nopZp : (Instr.nopZp 0x14 0x00).wellFormed = false := by decide
theorem test_ill_formed_nopZpx : (Instr.nopZpx 0x04 0x00).wellFormed = false := by decide
theorem test_ill_formed_nopAbx : (Instr.nopAbx 0x0C 0x0000).wellFormed = false := by decide
theorem test_ill_formed_ancImm : (Instr.ancImm 0x4B 0x00).wellFormed = false := by decide

/-- The host's word of a row with an operand: the bits the table does not give are 0. -/
theorem test_decode_table_word :
    decodeTableWord 24 0x1234AD = some (.ldaAbs 0x1234) ∧ decodeTableWord 16 0x0000 = some (.brk 0x00) ∧
      decodeTableWord 8 0x20 = some (.jsr 0x0000) := by decide

/-! ### Witnesses: concrete states that meet the hypotheses of the statements -/

/-- A running machine at a boundary in RAM, with LDA #$80 next. -/
def running : State := placed 0x0300 [0xA9, 0x80] [] reference

/-- The same under `trap`. -/
def trapping : State := { running with profile := { vectorProfile with policy := .trap } }

/-- The same, Paused, with a command next. -/
def paused (c : Command) : State := { running with runState := .paused, commands := [some c] }

/-- A machine whose map has the PPU's write-only registers, RAM and ROM. -/
def mapped : State :=
  { running with
    profile := { vectorProfile with
      map := [ ⟨0x0000, 0x1FFF, 0x0800, .ram⟩, ⟨0x2000, 0x3FFF, 8, .port .ppu [0]⟩, ⟨0x8000, 0xFFFF, 0x4000, .rom⟩ ] } }

/-- `running` meets the invariant. -/
theorem running_inv : running.Inv :=
  ⟨by decide, by decide, by decide, ⟨by decide, by decide⟩, by decide, by decide, ⟨by decide, by decide, by decide⟩⟩

/-- A Paused machine meets the invariant, whatever its command. -/
theorem paused_inv (c : Command) : (paused c).Inv :=
  ⟨by simp only [paused]; decide, by simp only [paused]; decide, by simp only [paused]; decide,
    ⟨rfl, rfl⟩, fun _ => rfl, by simp [paused],
    ⟨by simp only [paused]; decide, by simp only [paused]; decide, by simp only [paused]; decide⟩⟩

theorem witness_DecodeInvertsEncode :
    (Instr.jam 0xF2).wellFormed = true ∧ (Instr.nopAbx 0xFC 0xFFFF).wellFormed = true ∧
      (Instr.ldaImm 0x00).wellFormed = true := by decide

theorem witness_EncodeInvertsDecode : decode [0xFC, 0xFF, 0xFF, 0x00] = .ok (.nopAbx 0xFC 0xFFFF, [0x00]) := rfl

/-- A documented opcode, an illegal one, and two memories that differ only past the instruction. -/
theorem witness_DisassemblyRoundTrips :
    illegal 0xEA = false ∧ illegal 0x02 = true ∧
      ∃ read other : Addr → Byte, other ≠ read ∧
        ∀ k, k < opLength (read 0xFFFF) →
          other (0xFFFF + BitVec.ofNat 16 k) = read (0xFFFF + BitVec.ofNat 16 k) := by
  refine ⟨by decide, by decide, fun _ => 0xEA, fun a => if a = 0x0000 then 0x00 else 0xEA, ?_, ?_⟩
  · intro h
    exact absurd (congrFun h 0x0000) (by decide)
  · decide

theorem witness_StepRunsTheDecodedInstruction :
    running.ticks ∧ running.fetchesNext ∧
      decode (fetchBytes running) = .ok (.ldaImm 0x80, [0x00]) ∧
      ∃ t, exec (.ldaImm 0x80) (scriptTaken running) = .next t :=
  ⟨⟨by decide, by decide⟩, ⟨by decide, by decide, by decide⟩, rfl, _, rfl⟩

/-- RAM at PC; a JSR whose third byte its pushes overwrite; nothing driven at PC, at PC + 2 of a JSR, and of another
instruction. -/
theorem witness_FetchDeliversTheBytesAtPc :
    Memory.wf running.mem = true ∧ running.stored running.pc = some 0xA9 ∧
      (let s := placed 0x01FB [0x20, 0x00, 0x90] [] reference
       Memory.wf s.mem = true ∧ s.stored s.pc = some 0x20 ∧
         s.afterPush (s.sp - 1) (lo (s.pc + 2)) (s.afterPush s.sp (hi (s.pc + 2)) s.stored) (s.pc + 2) = some 0x01) ∧
      (target { running with pc := 0x4000 } 0x4000).kind = .undriven ∧
      (∀ op : Byte, op = 0x20 ∨ op = 0xAD →
        let s := placed 0x1FFE [op, 0x12] []
          { reference with profile := { vectorProfile with map := [⟨0x0000, 0x1FFF, 0x0800, .ram⟩] } }
        s.stored s.pc = some op ∧ (target s (s.pc + 2)).kind = .undriven) ∧
      (target { running with profile := { vectorProfile with map := [⟨0x0300, 0x0300, 1, .outOfRange⟩] } } 0x0300).kind =
        .outOfRange ∧
      (∃ chip writeOnly, (target mapped 0x2000).kind = .port chip writeOnly ∧
        (target mapped 0x2000).offset ∈ writeOnly) :=
  ⟨by decide, by decide, by decide, by decide, by
    intro op h; rcases h with rfl | rfl <;> decide, by decide, .ppu, [0], by decide, by decide⟩

theorem witness_TickIsRepeatedStepCycle :
    running.Inv ∧ running.ticks ∧ ∀ e ∈ running.inputs, e.stall = 0 :=
  ⟨running_inv, ⟨by decide, by decide⟩, by decide⟩

theorem witness_EveryStepKeepsTheInvariant :
    running.Inv ∧ (∃ t, step running = .next t) ∧ (paused .reset).Inv ∧ ∃ t, step (paused .reset) = .next t :=
  ⟨running_inv, ⟨_, rfl⟩, paused_inv _, ⟨_, rfl⟩⟩

theorem witness_NoStepChangesTheProfile : ∃ t, step trapping = .next t := ⟨_, rfl⟩

theorem witness_ResetCommandRunsTheResetSequence :
    (paused .reset).AtBoundary ∧ nextCommand (paused .reset) = some .reset ∧ (paused .reset).runState = .paused ∧
      (paused .reset).noBusFault ∧ (wordAt (paused .reset).stored 0xFFFC 0xFFFD).isSome = true :=
  ⟨⟨by decide, by decide⟩, by decide, by decide, by unfold State.noBusFault; decide, by decide⟩

theorem witness_ConstructionRunsTheResetSequence :
    validate { rawProfile with ratioQ := 0 } = .error .badRatio ∧ ∃ p, validate rawProfile = .ok p :=
  ⟨by decide, _, rfl⟩

theorem witness_ProfileValidationIsTheSpecs :
    (∀ e ∈ rawProfile.map, e.first ≤ e.last) ∧ rawProfile.map ≠ [] ∧ (∃ p, validate rawProfile = .ok p) := by
  exact ⟨by decide, by decide, _, rfl⟩

/-- A ROM cell, through an address and its mirror, with a store to it next. -/
theorem witness_RomNeverChanges :
    let s := placed 0x0300 [0x8D, 0x00, 0x80] [] mapped
    mapWellFormed s.profile.map = true ∧ (target s 0x8000).kind = .rom ∧ (target s 0xFFFF).kind = .rom ∧
      ∃ t, step s = .next t :=
  ⟨by decide, by decide, by decide, _, rfl⟩

/-- The first and the last mirror of a RAM range, and the region of each. -/
theorem witness_MirrorsShareTheirCell :
    mapWellFormed mapped.profile.map = true ∧ Memory.wf mapped.mem = true ∧
      (⟨0x0000, 0x1FFF, 0x0800, .ram⟩ : Region) ∈ mapped.profile.map ∧ (0x07FF : Addr).toNat + 3 * 0x0800 ≤ 0x1FFF ∧
      ∃ t u, exec (.staAbs 0x07FF) mapped = .next t ∧
        exec (.ldaAbs (0x07FF + BitVec.ofNat 16 (3 * 0x0800))) t = .next u :=
  ⟨by decide, by decide, by decide, by decide, _, _, rfl, rfl⟩

/-- An address nothing drives, a write-only register, a zero page that nothing drives, an out-of-range address beside a
program, and an instruction that runs with a record standing. -/
theorem witness_OpenBusReturnsTheLastByte :
    (target mapped 0x4000).kind = .undriven ∧
      (∃ chip writeOnly, (target mapped 0x2000).kind = .port chip writeOnly ∧
        (target mapped 0x2000).offset ∈ writeOnly) ∧
      (let s := { running with profile := { vectorProfile with map := [] } }
       (target s 0x00FF).kind = .undriven ∧ (0x00FF : Addr).toNat < 256) ∧
      (let s := { running with profile := { vectorProfile with map := [⟨0x0303, 0x0303, 1, .outOfRange⟩] } }
       (target s 0x0303).kind = .outOfRange ∧ s.fault = none ∧
         ∀ k, k < 3 → (target s (s.pc + BitVec.ofNat 16 k)).kind ≠ .outOfRange) ∧
      (let s := { running with fault := some ⟨.hardwareFault, 2, 0x5000, 0xAD, 4⟩ }
       (Instr.sloIzx 0x40).wellFormed = true ∧ (Instr.sloIzx 0x40).executes s.profile.policy = true ∧
         s.fault = some ⟨.hardwareFault, 2, 0x5000, 0xAD, 4⟩ ∧ ∃ t, exec (.sloIzx 0x40) s = .next t) :=
  ⟨by decide, ⟨.ppu, [0], by decide, by decide⟩, by decide, by decide, by decide, by decide, rfl, _, rfl⟩

theorem witness_ClockRatioIsExact :
    running.Inv ∧ (∀ e ∈ running.inputs, e.stall = 0) ∧ ∃ t, step running = .next t :=
  ⟨running_inv, by decide, _, rfl⟩

/-- A cycle that fetches, a halted one, one inside a sequence, and the one that decides the vector. -/
theorem witness_InputsAreSampledEveryCycle :
    running.seq = .fetch ∧ (∀ e ∈ running.inputs, e.stall = 0) ∧
      (let s := { running with seq := .interrupt, queue := [.pushLoVec, .pushP, .vecLo, .vecHi] }
       s.halted = false ∧ s.seq ≠ .fetch ∧ s.queue ≠ [] ∧ s.queue.head? = some .pushLoVec) ∧
      (let s := { running with seq := .halted, halted := true }
       s.halted = true) := by decide

/-- An instruction that polls, RTI, a branch, BRK, JAM, and a trapped one. -/
theorem witness_EachInstructionPollsItsCycle :
    ((Instr.ldaImm 0x00).wellFormed = true ∧ (Instr.ldaImm 0x00).executes running.profile.policy = true ∧
      (Instr.ldaImm 0x00).accessClass = .read) ∧
    (Instr.rti.wellFormed = true ∧ Instr.rti.mnemonic = .rti ∧ Instr.rti.accessClass = .jump) ∧
    ((Instr.beq 0x80).wellFormed = true ∧ (Instr.beq 0x80).accessClass = .branch) ∧
    ((Instr.brk 0x00).wellFormed = true ∧ (Instr.brk 0x00).accessClass = .interrupt) ∧
    ((Instr.jam 0x02).wellFormed = true ∧ (Instr.jam 0x02).accessClass = .halt) ∧
    ((Instr.laxZp 0x00).wellFormed = true ∧ (Instr.laxZp 0x00).executes trapping.profile.policy = false) := by decide

/-- With S at 1, so that the pushes wrap, and both vectors in memory. -/
theorem witness_InterruptEntrySavesAndVectors :
    let s := { running with intNext := .irq, sp := 0x01 }
    Memory.wf s.mem = true ∧ s.ticks ∧ s.seq = .fetch ∧ s.halted = false ∧ s.intNext ≠ .none ∧
      (wordAt s.stored s.profile.vecIrq (s.profile.vecIrq + 1)).isSome = true :=
  ⟨by decide, ⟨by decide, by decide⟩, by decide, by decide, by decide, by decide⟩

theorem witness_BrkEntersTheHandler :
    Memory.wf running.mem = true ∧ running.noBusFault ∧
      (wordAt running.stored running.profile.vecIrq (running.profile.vecIrq + 1)).isSome = true ∧
      (let s := { running with nmiPending := true }
       Memory.wf s.mem = true ∧ (sampled 4 s).nmiPending = true) :=
  ⟨by decide, by unfold State.noBusFault; decide, by decide, by decide⟩

theorem witness_IllegalOpcodesTrap :
    (Instr.iscAbx 0xFFFF).wellFormed = true ∧ (Instr.iscAbx 0xFFFF).documented = false ∧
      (Instr.jam 0x02).documented = false ∧ trapping.profile.policy = .trap := by decide

theorem witness_JamHaltsTheCpu :
    (Instr.jam 0x02).hasRow rowsJam ∧ (Instr.jam 0xF2).hasRow rowsJam ∧ running.profile.policy = .emulate ∧
      running.noBusFault := by
  unfold Instr.hasRow State.noBusFault; decide

theorem witness_HaltedUntilReset :
    let s := { running with halted := true, seq := .halted }
    s.Inv ∧ s.halted = true ∧ s.ticks ∧ nextCommand s ≠ some .reset ∧ ∃ t, step s = .next t :=
  ⟨⟨by decide, by decide, by decide, ⟨by decide, by decide⟩, by decide, by decide, ⟨by decide, by decide, by decide⟩⟩,
    by decide, ⟨by decide, by decide⟩, by decide, _, rfl⟩

/-! The operand of every mode at a boundary value: the premises inside `Completes`, `OperandRead`, `OperandWritten` and
`OperandModified`. -/

/-- A machine with pointers at the ends of the zero page and both indexes $FF. -/
def operands : State :=
  placed 0x0300 [] [(0x00FE, 0xFF), (0x00FF, 0x02), (0x0000, 0x02)] { reference with x := 0xFF, y := 0xFF }

theorem witness_operands :
    effective (.ldaZp 0xFF) operands = some 0x00FF ∧ effective (.ldaZpx 0xFF) operands = some 0x00FE ∧
      effective (.ldxZpy 0x01) operands = some 0x0000 ∧ effective (.ldaAbs 0xFFFF) operands = some 0xFFFF ∧
      effective (.ldaAbx 0xFFFF) operands = some 0x00FE ∧ effective (.ldaAby 0x0000) operands = some 0x00FF ∧
      effective (.ldaIzx 0xFF) operands = some 0x02FF ∧ effective (.ldaIzy 0xFF) operands = some 0x0301 ∧
      operands.stored 0x00FE = some 0xFF ∧ crosses (.ldaAbx 0xFFFF) operands = some true ∧
      crosses (.ldaAby 0x0000) operands = some false ∧ crosses (.ldaIzy 0xFF) operands = some true ∧
      extraCycles (.ldaAbx 0xFFFF) operands = some 1 ∧ extraCycles (.staAbx 0xFFFF) operands = some 0 ∧
      baseHigh (.shaIzy 0xFF) operands = some 0x02 ∧ operands.noBusFault := by
  unfold State.noBusFault; decide

theorem witness_LoadsSetTheirRegister :
    (Instr.ldaIzy 0xFF).hasRow rowsLda ∧ (Instr.ldxZpy 0xFF).hasRow rowsLdx ∧ (Instr.ldyAbx 0xFFFF).hasRow rowsLdy := by
  unfold Instr.hasRow; decide

theorem witness_StoresWriteTheirRegister :
    Memory.wf operands.mem = true ∧ (Instr.staIzx 0xFF).hasRow rowsSta ∧ (Instr.stxZpy 0xFF).hasRow rowsStx ∧
      (Instr.styAbs 0xFFFF).hasRow rowsSty := by
  unfold Instr.hasRow; decide

theorem witness_TransfersMoveRegisters :
    Instr.tax.hasRow rowsTax ∧ Instr.tay.hasRow rowsTay ∧ Instr.txa.hasRow rowsTxa ∧ Instr.tya.hasRow rowsTya ∧
      Instr.tsx.hasRow rowsTsx ∧ Instr.txs.hasRow rowsTxs := by
  unfold Instr.hasRow; decide

/-- With S at the bottom of the stack page. -/
theorem witness_PushesWriteAtTheStackPointer :
    Memory.wf { running with sp := 0x00 }.mem = true ∧ Instr.pha.hasRow rowsPha ∧ Instr.php.hasRow rowsPhp := by
  unfold Instr.hasRow; decide

/-- With S at the top of the stack page. -/
theorem witness_PullsReadAboveTheStackPointer :
    Instr.pla.hasRow rowsPla ∧ Instr.plp.hasRow rowsPlp ∧
      (let s := { running with sp := 0xFF }
       s.stored (stackAddr (s.sp + 1)) = some 0x00) := by
  unfold Instr.hasRow; decide

theorem witness_AdcAddsWithCarry : (Instr.adcImm 0xFF).hasRow rowsAdc ∧ (Instr.adcIzy 0x00).hasRow rowsAdc := by
  unfold Instr.hasRow; decide

theorem witness_SbcSubtractsWithBorrow :
    (Instr.sbcAbx 0xFFFF).hasRow rowsSbc ∧ (Instr.usbcImm 0xFF).hasRow rowsUsbc ∧ running.profile.policy = .emulate := by
  unfold Instr.hasRow; decide

theorem witness_LogicCombinesWithA :
    (Instr.andImm 0xFF).hasRow rowsAnd ∧ (Instr.oraIzx 0xFF).hasRow rowsOra ∧ (Instr.eorAby 0x0000).hasRow rowsEor := by
  unfold Instr.hasRow; decide

theorem witness_ComparesSetCzn :
    (Instr.cmpZpx 0xFF).hasRow rowsCmp ∧ (Instr.cpxImm 0x00).hasRow rowsCpx ∧ (Instr.cpyAbs 0xFFFF).hasRow rowsCpy := by
  unfold Instr.hasRow; decide

theorem witness_BitTestsMemory : (Instr.bitZp 0xFF).hasRow rowsBit ∧ (Instr.bitAbs 0xFFFF).hasRow rowsBit := by
  unfold Instr.hasRow; decide

theorem witness_IncDecMemory :
    Memory.wf operands.mem = true ∧ (Instr.incZpx 0xFF).hasRow rowsInc ∧ (Instr.decAbx 0xFFFF).hasRow rowsDec := by
  unfold Instr.hasRow; decide

theorem witness_IncDecRegisters :
    Instr.inx.hasRow rowsInx ∧ Instr.iny.hasRow rowsIny ∧ Instr.dex.hasRow rowsDex ∧ Instr.dey.hasRow rowsDey := by
  unfold Instr.hasRow; decide

/-- Each shift on the accumulator and in memory. -/
theorem witness_ShiftsAndRotates :
    Memory.wf operands.mem = true ∧ Instr.aslAcc.hasRow rowsAsl ∧ Instr.aslAcc.mode = .acc ∧
      (Instr.aslAbx 0xFFFF).hasRow rowsAsl ∧ (Instr.aslAbx 0xFFFF).mode ≠ .acc ∧ Instr.lsrAcc.hasRow rowsLsr ∧
      (Instr.lsrZp 0xFF).hasRow rowsLsr ∧ Instr.rolAcc.hasRow rowsRol ∧ (Instr.rolZpx 0xFF).hasRow rowsRol ∧
      Instr.rorAcc.hasRow rowsRor ∧ (Instr.rorAbs 0xFFFF).hasRow rowsRor := by
  unfold Instr.hasRow; decide

/-- A pointer at the end of a page. -/
theorem witness_JmpSetsPc :
    operands.noBusFault ∧ wordAt operands.stored 0x00FF (join (hi 0x00FF) (lo 0x00FF + 1)) = some 0x0202 := by
  unfold State.noBusFault; decide

theorem witness_JsrPushesItsReturn : Memory.wf { running with sp := 0x00 }.mem = true := by decide

theorem witness_ReturnsPullPc :
    let s := placed 0x0300 [] [(0x01FF, 0xC3), (0x0100, 0x02), (0x0101, 0x80)] { reference with sp := 0xFE }
    s.stored (stackAddr (s.sp + 1)) = some 0xC3 ∧
      wordAt s.stored (stackAddr (s.sp + 1)) (stackAddr (s.sp + 2)) = some 0x02C3 ∧
      wordAt s.stored (stackAddr (s.sp + 2)) (stackAddr (s.sp + 3)) = some 0x8002 := by decide

/-- A branch taken, and one not taken. -/
theorem witness_BranchesFollowTheirFlag :
    (Instr.bpl 0x80, (0x10 : Byte), true) ∈
        ([ (.bpl 0x80, 0x10, !running.fN), (.bmi 0x80, 0x30, running.fN) ] : List (Instr × Byte × Bool)) ∧
      (Instr.bmi 0x80, (0x30 : Byte), false) ∈
        ([ (.bpl 0x80, 0x10, !running.fN), (.bmi 0x80, 0x30, running.fN) ] : List (Instr × Byte × Bool)) := by
  decide

theorem witness_FlagInstructionsWriteOneFlag :
    Instr.clc.hasRow rowsClc ∧ Instr.sec.hasRow rowsSec ∧ Instr.cli.hasRow rowsCli ∧ Instr.sei.hasRow rowsSei ∧
      Instr.clv.hasRow rowsClv ∧ Instr.cld.hasRow rowsCld ∧ Instr.sed.hasRow rowsSed := by
  unfold Instr.hasRow; decide

theorem witness_NopsChangeNothing :
    Instr.nop.hasRow rowsNop ∧ (Instr.nopImp 0xFA).hasRow rowsUndocNop ∧
      (Instr.nopAbx 0xFC 0xFFFF).hasRow rowsUndocNop ∧ (Instr.nopAbx 0xFC 0xFFFF).mode ≠ .imp ∧
      running.profile.policy = .emulate := by
  unfold Instr.hasRow; decide

theorem witness_ShiftAndCombine :
    Memory.wf operands.mem = true ∧ operands.profile.policy = .emulate ∧ (Instr.sloIzx 0xFF).hasRow rowsSlo ∧
      (Instr.rlaIzy 0xFF).hasRow rowsRla ∧ (Instr.sreAby 0xFFFF).hasRow rowsSre := by
  unfold Instr.hasRow; decide

theorem witness_ModifyAndCombineArithmetic :
    Memory.wf operands.mem = true ∧ operands.profile.policy = .emulate ∧ (Instr.rraIzx 0xFF).hasRow rowsRra ∧
      (Instr.iscIzy 0xFF).hasRow rowsIsc ∧ (Instr.dcpZpx 0xFF).hasRow rowsDcp := by
  unfold Instr.hasRow; decide

theorem witness_CombinedLoadsAndStores :
    Memory.wf operands.mem = true ∧ operands.profile.policy = .emulate ∧ (Instr.saxZpy 0xFF).hasRow rowsSax ∧
      (Instr.laxIzy 0xFF).hasRow rowsLax ∧ (Instr.lasAby 0xFFFF).hasRow rowsLas := by
  unfold Instr.hasRow; decide

theorem witness_ImmediateCombinations :
    running.profile.policy = .emulate ∧ (Instr.ancImm 0x2B 0xFF).hasRow rowsAnc ∧ (Instr.alrImm 0xFF).hasRow rowsAlr ∧
      (Instr.arrImm 0xFF).hasRow rowsArr ∧ (Instr.sbxImm 0xFF).hasRow rowsSbx := by
  unfold Instr.hasRow; decide

/-- With a magic constant, and with "any value". -/
theorem witness_UnstableConstants :
    running.profile.policy = .emulate ∧ (Instr.aneImm 0xFF).hasRow rowsAne ∧ (Instr.lxaImm 0xFF).hasRow rowsLxa ∧
      running.profile.aneMagic = some 0xFF ∧ running.profile.lxaMagic = some 0xFF ∧
      Config.defaultProfile.aneMagic = none ∧ Config.defaultProfile.policy = .emulate := by
  unfold Instr.hasRow; decide

/-- Under `formula` and under `any`; an index that crosses and one that does not. -/
theorem witness_UnstableStores :
    Memory.wf operands.mem = true ∧ operands.profile.policy = .emulate ∧ (Instr.shaIzy 0xFF).hasRow rowsSha ∧
      (Instr.shxAby 0x0000).hasRow rowsShx ∧ (Instr.shyAbx 0xFFFF).hasRow rowsShy ∧
      (Instr.tasAby 0x0001).hasRow rowsTas ∧ operands.profile.storeModel = .formula ∧
      Config.defaultProfile.storeModel = .any ∧ crosses (.shyAbx 0xFFFF) operands = some true ∧
      crosses (.shxAby 0x0000) operands = some false ∧ baseHigh (.shaIzy 0xFF) operands = some 0x02 := by
  unfold Instr.hasRow; decide

/-- An instruction on no list of A, X, Y, S and the flags, and one on all lists but some. -/
theorem witness_RegistersAndFlagsHaveNoOtherWriter :
    (Instr.staZp 0x00).wellFormed = true ∧ (∃ t, exec (.staZp 0x00) running = .next t) ∧
      (Instr.plp).wellFormed = true ∧ (∃ t, exec .plp running = .next t) ∧
      Instr.plp.mnemonic ∉ ([.lda, .ldx, .ldy] : List Mnemonic) :=
  ⟨by decide, ⟨_, rfl⟩, by decide, ⟨_, rfl⟩, by decide⟩

theorem witness_DecimalFlagHasNoEffect :
    (Instr.adcImm 0x05).mnemonic ∉ ([.php, .brk, .plp, .rti, .sed, .cld] : List Mnemonic) ∧
      ∃ t, exec (.adcImm 0x05) running = .next t :=
  ⟨by decide, _, rfl⟩

theorem witness_OnlyStoringInstructionsChangeMemory :
    (Instr.ldaImm 0x00).wellFormed = true ∧ (Instr.ldaImm 0x00).accessClass = .read ∧
      (∃ t, exec (.ldaImm 0x00) running = .next t) ∧ Instr.rti.mnemonic = .rti ∧ ∃ t, exec .rti running = .next t :=
  ⟨by decide, by decide, ⟨_, rfl⟩, by decide, _, rfl⟩

/-- A boundary of each case of the check. -/
theorem witness_BoundaryCheckStopsInOrder :
    (let u := { running with fault := some ⟨.hardwareFault, 1, 0x0300, 0x02, 8⟩ }
     u.fault ≠ none) ∧
    (let u := { running with runState := .steppingInstruction }
     u.fault = none ∧ u.runState = .steppingInstruction) ∧
    (let u := { running with pauseRequested := true }
     u.fault = none ∧ u.runState ≠ .steppingInstruction ∧ u.pauseRequested = true) ∧
    (let u := { running with runState := .steppingFrame, frameSeen := true }
     u.fault = none ∧ u.pauseRequested = false ∧ u.runState = .steppingFrame ∧ u.frameSeen = true) ∧
    (let u := { running with breakpoints := [⟨1, 0x0301, true, none⟩, ⟨2, 0x0300, true, none⟩] }
     u.fault = none ∧ u.pauseRequested = false ∧ u.runState ≠ .steppingInstruction ∧
       ¬ (u.runState = .steppingFrame ∧ u.frameSeen = true) ∧ u.halted = false ∧ u.intNext = .none ∧
       u.breakpoints = [⟨1, 0x0301, true, none⟩] ++ ⟨2, 0x0300, true, none⟩ :: [] ∧
       (⟨2, 0x0300, true, none⟩ : Breakpoint).address = u.pc ∧
       ∀ e ∈ ([⟨1, 0x0301, true, none⟩] : List Breakpoint), e.address ≠ u.pc) ∧
    (∀ e ∈ running.breakpoints, e.address ≠ running.pc) ∧ { running with halted := true }.halted = true ∧
    (let u := { running with breakpoints := [⟨1, 0x0300, false, none⟩] }
     u.halted = false ∧ u.intNext = .none ∧ ∀ e ∈ u.breakpoints, e.enabled = false ∧ e.address = u.pc) := by decide

theorem witness_RunStepAndPauseCommands :
    (paused .continueExecution).runState = .paused ∧
      nextCommand (paused .continueExecution) = some .continueExecution ∧
      nextCommand (paused .stepFrame) = some .stepFrame ∧
      nextCommand (paused .stepInstruction) = some .stepInstruction ∧ nextCommand (paused .pause) = some .pause ∧
      (let s := { running with runState := .paused }
       s.runState = .paused ∧ nextCommand s = none) ∧
      (let s := { running with commands := [some .pause] }
       s.runState = .running ∧ nextCommand s = some .pause) := by decide

theorem witness_MisusedCommandsChangeNothing :
    (let s := { running with commands := [some .reset] }
     nextCommand s = some .reset ∧ s.runState ≠ .paused ∧ (Command.reset) ≠ .pause) ∧
    (let s := { running with commands := [some (.removeBreakpoint 99)] }
     nextCommand s = some (.removeBreakpoint 99) ∧ ∀ b ∈ s.breakpoints, b.id ≠ 99) := by decide

theorem witness_OverridesAndBreakpointCommands :
    (paused (.write 0x0010 0xAA)).Inv ∧ (paused (.write 0x0010 0xAA)).runState = .paused ∧
      nextCommand (paused (.write 0x0010 0xAA)) = some (.write 0x0010 0xAA) ∧
      nextCommand (paused (.setRegisters ⟨1, 2, 3, 4, 5, 6⟩)) = some (.setRegisters ⟨1, 2, 3, 4, 5, 6⟩) ∧
      nextCommand (paused (.addBreakpoint 0xFFFF none)) = some (.addBreakpoint 0xFFFF none) ∧
      (let s := { paused (.removeBreakpoint 1) with breakpoints := [⟨1, 0x8009, true, none⟩], nextBreakpointId := 2 }
       s.Inv ∧ nextCommand s = some (.removeBreakpoint 1) ∧ ∃ b ∈ s.breakpoints, b.id = 1) :=
  ⟨paused_inv _, by decide, by decide, by decide, by decide,
    ⟨by decide, by decide, by decide, ⟨by decide, by decide⟩, by decide, by decide, ⟨by decide, by decide, by decide⟩⟩,
    by decide, by decide⟩

/-- A window that wraps at the top of memory. -/
theorem witness_InspectionReadsAndChangesNothing :
    (paused (.inspect 0xFFFF 2)).runState = .paused ∧
      nextCommand (paused (.inspect 0xFFFF 2)) = some (.inspect 0xFFFF 2) ∧
      (paused (.inspect 0xFFFF 2)).stored (0xFFFF + BitVec.ofNat 16 1) = some 0x00 := by decide

end Sys2Proof.Tests
end

section
/-! What exec, a sequence, a tick and a step can do, said once: the inversion lemmas that the statements about every step
go through. -/

namespace Sys2Proof.Machine

/-! ### exec -/

/-- An undocumented meaning is the sequence of any illegal opcode with its micro-operations, whatever bytes it is given. -/
theorem runIllegal_of_sequence {ops : List MicroOp} {op : Byte} (h : illegal op = true ∧ emulatedSequence op = ops)
    (bytes : List Byte) (s : State) :
    runIllegal ops bytes s = .next (runOps (sequenceOf s.profile.policy op) bytes (startInstr s)) := by
  unfold runIllegal sequenceOf runInstr
  rw [h.1, h.2]
  cases s.profile.policy <;> rfl

/-- Of every term, exec runs the sequence of one opcode: the term's own, or, where the term is ill formed, an illegal one. -/
theorem exec_runs (i : Instr) :
    ∃ op, (op = i.opcode ∨ illegal op = true) ∧ ∀ s,
      exec i s = .next (runOps (sequenceOf s.profile.policy op) (encode i) (startInstr s)) := by
  by_cases hw : i.wellFormed = true
  · exact ⟨i.opcode, .inl rfl, fun s => exec_eq i s hw⟩
  · cases i
    case jam => exact ⟨0x02, .inr rfl, fun s => runIllegal_of_sequence (ops := jamOps) ⟨rfl, rfl⟩ _ s⟩
    case nopZp => exact ⟨0x04, .inr rfl, fun s => runIllegal_of_sequence (ops := readZp .nop) ⟨rfl, rfl⟩ _ s⟩
    case ancImm => exact ⟨0x0B, .inr rfl, fun s => runIllegal_of_sequence (ops := readImm .anc) ⟨rfl, rfl⟩ _ s⟩
    case nopZpx => exact ⟨0x14, .inr rfl, fun s => runIllegal_of_sequence (ops := readZpIdx .x .nop) ⟨rfl, rfl⟩ _ s⟩
    case nopImp => exact ⟨0x1A, .inr rfl, fun s => runIllegal_of_sequence (ops := impliedOps .nop) ⟨rfl, rfl⟩ _ s⟩
    case nopAbx => exact ⟨0x1C, .inr rfl, fun s => runIllegal_of_sequence (ops := readAbsIdx .x .nop) ⟨rfl, rfl⟩ _ s⟩
    case nopImm => exact ⟨0x80, .inr rfl, fun s => runIllegal_of_sequence (ops := readImm .nop) ⟨rfl, rfl⟩ _ s⟩
    all_goals exact absurd rfl hw

/-- A property of micro-operations holds along every sequence that a policy can select for an opcode, if it holds along the
opcode's own sequence and of the trapped fetch. -/
theorem sequenceOf_all {Q : MicroOp → Prop} {op : Byte} (ht : Q .opcodeTrap) (h : ∀ u ∈ emulatedSequence op, Q u)
    (p : Policy) : ∀ u ∈ sequenceOf p op, Q u := by
  unfold sequenceOf
  split
  · simpa using ht
  · exact h

/-- Every sequence starts with a fetch of its opcode. -/
theorem emulatedSequence_head (op : Byte) :
    (emulatedSequence op).head? = some .opcode ∨ (emulatedSequence op).head? = some .opcodeJam := by
  revert op; decide

/-- The sequence of an opcode has a cycle to make. -/
theorem remaining_sequenceOf (p : Policy) (op : Byte) (s : State) : remaining (sequenceOf p op) s ≠ 0 := by
  have first : ∀ {u : MicroOp} {us : List MicroOp}, us.head? = some u → u.skipped s = false → remaining us s ≠ 0 := by
    intro u us hu hs
    obtain ⟨vs, rfl⟩ := List.head?_eq_some_iff.mp hu
    simp [remaining, hs]
  unfold sequenceOf
  split
  · exact first (u := .opcodeTrap) rfl rfl
  · rcases emulatedSequence_head op with h | h
    · exact first h rfl
    · exact first h rfl

/-! ### A sequence, a tick, a command, a step -/

/-- What one sequence can be (R120, R400). -/
theorem runSequence_cases {s t : State} (h : runSequence s = .next t) :
    (s.halted = true ∧ t = haltedCycle s) ∨
    (s.halted = false ∧ s.seq ≠ .fetch ∧ t = runOps s.queue [] s) ∨
    (s.halted = false ∧ s.seq = .fetch ∧ t = takeInterrupt s) ∨
    (s.halted = false ∧ s.seq = .fetch ∧
      ∃ op bytes, t = runOps (sequenceOf s.profile.policy op) bytes (startInstr s)) := by
  unfold runSequence at h
  by_cases hh : s.halted = true
  · rw [if_pos hh] at h
    cases h
    exact .inl ⟨hh, rfl⟩
  rw [if_neg hh] at h
  have hh : s.halted = false := by simpa using hh
  by_cases hq : s.seq = .fetch
  · rw [if_neg (not_not_intro hq)] at h
    split at h
    · cases h
      exact .inr (.inr (.inl ⟨hh, hq, rfl⟩))
    · unfold runNext at h
      split at h
      · next i _ _ =>
        obtain ⟨op, _, he⟩ := exec_runs i
        rw [he] at h
        cases h
        exact .inr (.inr (.inr ⟨hh, hq, op, _, rfl⟩))
      · cases h
  · rw [if_pos hq] at h
    cases h
    exact .inr (.inl ⟨hh, hq, rfl⟩)

/-- A tick does nothing while Paused, and else runs a sequence and checks the boundary (R400). -/
theorem tick_cases {s t : State} (h : tick s = .next t) :
    (s.runState = .paused ∧ t = s) ∨
      (s.runState ≠ .paused ∧ ∃ u, runSequence s = .next u ∧ t = boundaryCheck u) := by
  unfold tick at h
  split at h
  · next hp =>
    cases h
    exact .inl ⟨hp, rfl⟩
  · next hp =>
    unfold runAndCheck at h
    split at h
    · next u hu =>
      cases h
      exact .inr ⟨hp, u, hu, rfl⟩
    all_goals cases h

/-- A command is refused as CallerMisuse, and then changes nothing, or it is performed (R377). -/
theorem command_cases {c : Command} {s t : State} (h : command c s = .next t) :
    t = s ∨ (misuse c s = none ∧ perform c s = .next t) := by
  unfold command at h
  split at h
  · cases h
    exact .inl rfl
  · next hm => exact .inr ⟨hm, h⟩

/-- A step in which the host issues a command is that command. -/
theorem step_command {c : Command} {s : State} (h : nextCommand s = some c) : step s = command c (scriptTaken s) := by
  unfold nextCommand at h
  unfold step hostStep scriptTaken
  cases hc : s.commands with
  | nil => simp [hc] at h
  | cons d rest =>
    obtain rfl : d = some c := by simpa [hc] using h
    rfl

/-- A step in which the host issues no command is a tick. -/
theorem step_tick {s : State} (h : nextCommand s = none) : step s = tick (scriptTaken s) := by
  unfold nextCommand at h
  unfold step hostStep scriptTaken
  cases hc : s.commands with
  | nil =>
    have : s = { s with commands := [] } := by rw [← hc]
    simp only [List.tail_nil, ← this]
  | cons d rest =>
    obtain rfl : d = none := by simpa [hc] using h
    rfl

/-- What one step can be: the host's command, or a tick (log 20). -/
theorem step_cases {s t : State} (h : step s = .next t) :
    (∃ c, nextCommand s = some c ∧ command c (scriptTaken s) = .next t) ∨
      (nextCommand s = none ∧ tick (scriptTaken s) = .next t) := by
  cases hc : nextCommand s with
  | none => exact .inr ⟨rfl, step_tick hc ▸ h⟩
  | some c => exact .inl ⟨c, rfl, step_command hc ▸ h⟩

end Sys2Proof.Machine
end

section
/-! The profile and the invariant of Sys2Proof/Safety.lean: what every step keeps. `State.Steady` is the part of the
invariant that every sequence keeps by itself; the boundary check makes the rest of it hold. -/

namespace Sys2Proof.Machine

/-! ### The profile (R42) -/

@[simp] theorem haltedCycle_profile (s : State) : (haltedCycle s).profile = s.profile := rfl

@[simp] theorem takeInterrupt_profile (s : State) : (takeInterrupt s).profile = s.profile := by simp [takeInterrupt]

@[simp] theorem resetSequence_profile (s : State) : (resetSequence s).profile = s.profile := by
  simp [resetSequence, startReset]

/-- A sequence keeps the profile. -/
theorem runSequence_profile {s t : State} (h : runSequence s = .next t) : t.profile = s.profile := by
  rcases runSequence_cases h with ⟨_, rfl⟩ | ⟨_, _, rfl⟩ | ⟨_, _, rfl⟩ | ⟨_, _, op, bytes, rfl⟩
  · exact haltedCycle_profile s
  · exact runOps_profile ..
  · exact takeInterrupt_profile s
  · exact runOps_profile ..

/-- A tick keeps the profile. -/
theorem tick_profile {s t : State} (h : tick s = .next t) : t.profile = s.profile := by
  rcases tick_cases h with ⟨_, rfl⟩ | ⟨_, u, hu, rfl⟩
  · rfl
  · exact (boundaryCheck_profile u).trans (runSequence_profile hu)

/-- A command keeps the profile. -/
theorem command_profile {c : Command} {s t : State} (h : command c s = .next t) : t.profile = s.profile := by
  rcases command_cases h with rfl | ⟨_, hp⟩
  · rfl
  cases c
  case stepInstruction => exact (tick_profile hp).trans rfl
  case reset =>
    cases hp
    exact resetSequence_profile s
  all_goals
    cases hp
    rfl

/-- Settles O12: a step is a command or a tick, and each of them keeps the profile. -/
theorem noStepChangesTheProfile : Obligations.NoStepChangesTheProfile := by
  intro s t h
  rcases step_cases h with ⟨c, _, hc⟩ | ⟨_, ht⟩
  · exact (command_profile hc).trans rfl
  · exact (tick_profile ht).trans rfl

/-! ### The steady part of the invariant -/

/-- The part of the invariant that does not speak of the Run State: a sequence keeps it whatever started the sequence. -/
structure State.Steady (s : State) : Prop where
  memory      : MemoryGood s.mem
  acc_lt      : s.ppuAcc < s.profile.ratioQ
  boundary    : s.AtBoundary
  breakpoints : BreakpointsGood s

/-- The invariant is the steady part, and a clean and unstepped Run State. -/
theorem State.Steady.inv {s : State} (h : s.Steady) (hc : s.runState ≠ .paused → s.fault = none)
    (hs : s.runState ≠ .steppingInstruction) : s.Inv :=
  ⟨h.memory.wf, h.memory.small, h.acc_lt, h.boundary, hc, hs, h.breakpoints⟩

/-- A state that meets the invariant is steady. -/
theorem State.Inv.steady {s : State} (h : s.Inv) : s.Steady :=
  ⟨⟨h.mem_wf, h.mem_small⟩, h.acc_lt, h.boundary, h.breakpoints_good⟩

/-- The fraction after any cycle is a remainder, so below `q` (R412). -/
theorem acc_lt_runOps (ops : List MicroOp) (bytes : List Byte) {s : State} (h : s.ppuAcc < s.profile.ratioQ) :
    (runOps ops bytes s).ppuAcc < (runOps ops bytes s).profile.ratioQ := by
  refine runOps_keeps (P := fun r => r.ppuAcc < r.profile.ratioQ) (fun u us v r hr => ?_) ops bytes s h
  rw [cycle_ppuAcc, cycle_profile]
  exact Nat.mod_lt _ (by omega)

/-- A set of breakpoints is good in any state that has it with the same next id. -/
theorem BreakpointsGood.congr {s t : State} (h : BreakpointsGood s) (hb : t.breakpoints = s.breakpoints)
    (hn : t.nextBreakpointId = s.nextBreakpointId) : BreakpointsGood t :=
  ⟨hb ▸ h.rising, hb ▸ hn ▸ h.fresh, hb ▸ h.enabled⟩

/-- An edit that leaves the clock, the profile and the sequencer, with good memory and breakpoints, is steady. -/
theorem State.Steady.edited {s t : State} (h : s.Steady) (hm : MemoryGood t.mem) (hb : BreakpointsGood t)
    (ha : t.ppuAcc = s.ppuAcc) (hp : t.profile = s.profile) (hs : t.seq = s.seq) (hh : t.halted = s.halted)
    (hq : t.queue = s.queue) : t.Steady where
  memory := hm
  acc_lt := by rw [ha, hp]; exact h.acc_lt
  boundary := ⟨by rw [hs, hh]; exact h.boundary.seq_eq, hq ▸ h.boundary.queue_eq⟩
  breakpoints := hb

/-- A sequence with a cycle to make keeps a steady machine steady, from any start that touches the sequencer alone. -/
theorem steady_runOps {ops : List MicroOp} {s s' : State} (bytes : List Byte) (h : s.Steady)
    (hs : remaining ops s' ≠ 0) (hm : s'.mem = s.mem) (ha : s'.ppuAcc = s.ppuAcc) (hp : s'.profile = s.profile)
    (hb : s'.breakpoints = s.breakpoints) (hn : s'.nextBreakpointId = s.nextBreakpointId) :
    (runOps ops bytes s').Steady where
  memory := memoryGood_runOps ops bytes (hm ▸ h.memory)
  acc_lt := acc_lt_runOps ops bytes (by rw [ha, hp]; exact h.acc_lt)
  boundary := ⟨(runOps_ends ops bytes s' hs).1, (runOps_ends ops bytes s' hs).2⟩
  breakpoints := h.breakpoints.congr (by simp [hb]) (by simp [hn])

/-- A halted cycle keeps a steady machine steady: its clock is that of any cycle. -/
theorem steady_haltedCycle {s : State} (h : s.Steady) : (haltedCycle s).Steady where
  memory := h.memory
  acc_lt := Nat.mod_lt _ (Nat.zero_lt_of_lt h.acc_lt)
  boundary := ⟨h.boundary.seq_eq, h.boundary.queue_eq⟩
  breakpoints := h.breakpoints.congr rfl rfl

/-- A sequence keeps a steady machine steady. -/
theorem steady_runSequence {s t : State} (h : s.Steady) (ht : runSequence s = .next t) : t.Steady := by
  rcases runSequence_cases ht with ⟨_, rfl⟩ | ⟨hh, hq, _⟩ | ⟨_, _, rfl⟩ | ⟨_, _, op, bytes, rfl⟩
  · exact steady_haltedCycle h
  · exact absurd (by simpa [hh] using h.boundary.seq_eq) hq
  · exact steady_runOps [] h (by simp [remaining, entryOps, MicroOp.skipped]) rfl rfl rfl rfl rfl
  · exact steady_runOps bytes h (remaining_sequenceOf _ _ _) rfl rfl rfl rfl rfl

/-- The reset sequence keeps a steady machine steady. -/
theorem steady_resetSequence {s : State} (h : s.Steady) : (resetSequence s).Steady := by
  have hr : (runOps resetOps [] (startReset s)).Steady :=
    steady_runOps [] h (by simp [remaining, resetOps, MicroOp.skipped]) rfl rfl rfl rfl rfl
  exact hr.edited hr.memory (hr.breakpoints.congr rfl rfl) rfl rfl rfl rfl rfl

/-! ### The boundary check -/

/-- Where no case of the check applies, no fault is recorded and no step of one instruction is asked for (R404). -/
theorem boundaryStop_none {u : State} (h : boundaryStop u = none) :
    u.fault = none ∧ u.runState ≠ .steppingInstruction := by
  unfold boundaryStop at h
  split at h
  · cases h
  · next hf =>
    split at h
    · cases h
    · next hs => exact ⟨by simpa using hf, hs⟩

/-- A machine that goes on after the check met no case of it. -/
theorem boundaryStop_of_not_paused {u : State} (h : (boundaryCheck u).runState ≠ .paused) :
    boundaryStop u = none ∧ (boundaryCheck u).runState = u.runState := by
  have hr : (boundaryCheck u).runState = runStateAfter (boundaryStop u) u := rfl
  cases hb : boundaryStop u with
  | none => exact ⟨rfl, by rw [hr, hb]; rfl⟩
  | some reason => exact absurd (by rw [hr, hb]; rfl) h

/-- The check completes the invariant of a steady machine, whatever its Run State and its fault were. -/
theorem inv_boundaryCheck {u : State} (h : u.Steady) : (boundaryCheck u).Inv := by
  have hs : (boundaryCheck u).Steady := h.edited h.memory (h.breakpoints.congr rfl rfl) rfl rfl rfl rfl rfl
  refine hs.inv (fun hp => ?_) (fun he => ?_)
  · exact (boundaryStop_none (boundaryStop_of_not_paused hp).1).1
  · obtain ⟨hn, hr⟩ := boundaryStop_of_not_paused (u := u) (by rw [he]; decide)
    exact (boundaryStop_none hn).2 (hr ▸ he)

/-- A sequence and its check give a state that meets the invariant. -/
theorem inv_tick_of_running {s t : State} (h : s.Steady) (hr : s.runState ≠ .paused) (ht : tick s = .next t) :
    t.Inv := by
  rcases tick_cases ht with ⟨hp, _⟩ | ⟨_, u, hu, rfl⟩
  · exact absurd hp hr
  · exact inv_boundaryCheck (steady_runSequence h hu)

/-! ### The commands -/

/-- Starting a run leaves a steady machine steady. -/
theorem steady_startRun {s : State} (r : RunState) (h : s.Steady) : (startRun r s).Steady :=
  h.edited h.memory (h.breakpoints.congr rfl rfl) rfl rfl rfl rfl rfl

/-- An added breakpoint has a fresh id, above those before it (R411). -/
theorem breakpointsGood_add {s : State} (a : Addr) (condition : Option Nat) (h : BreakpointsGood s) :
    BreakpointsGood (addBreakpoint a condition s) where
  rising := List.pairwise_append.mpr ⟨h.rising, List.pairwise_singleton .., fun b hb c hc => by
    obtain rfl := List.mem_singleton.mp hc
    exact h.fresh b hb⟩
  fresh := fun b hb => by
    rcases List.mem_append.mp hb with hb | hb
    · exact Nat.lt_succ_of_lt (h.fresh b hb)
    · obtain rfl := List.mem_singleton.mp hb
      exact Nat.lt_succ_self _
  enabled := fun b hb => by
    rcases List.mem_append.mp hb with hb | hb
    · exact h.enabled b hb
    · obtain rfl := List.mem_singleton.mp hb
      rfl

/-- A removal leaves a part of the set (R411). -/
theorem breakpointsGood_remove {s : State} (id : Nat) (h : BreakpointsGood s) :
    BreakpointsGood (removeBreakpoint id s) where
  rising := h.rising.filter _
  fresh := fun b hb => h.fresh b (List.mem_filter.mp hb).1
  enabled := fun b hb => h.enabled b (List.mem_filter.mp hb).1

/-- An edit that leaves the Run State and the fault too keeps the invariant. -/
theorem State.Inv.edited {s t : State} (h : s.Inv) (ht : t.Steady) (hr : t.runState = s.runState)
    (hf : t.fault = s.fault) : t.Inv :=
  ht.inv (by rw [hr, hf]; exact h.running_clean) (by rw [hr]; exact h.not_stepping)

/-- A pause writes the request alone (R402). -/
theorem requestPause_eq (s : State) : ∃ b, requestPause s = { s with pauseRequested := b } := ⟨_, rfl⟩

/-- A command that is performed keeps the invariant. -/
theorem inv_perform {c : Command} {s t : State} (h : s.Inv) (hp : perform c s = .next t) : t.Inv := by
  have hst := h.steady
  have hb := h.breakpoints_good
  cases c
  case stepInstruction => exact inv_tick_of_running (steady_startRun _ hst) (by simp [startRun]) hp
  all_goals obtain rfl := Host.Outcome.next.inj hp
  case continueExecution => exact (steady_startRun .running hst).inv (fun _ => rfl) (by simp [startRun])
  case stepFrame =>
    exact State.Steady.inv (hst.edited hst.memory (hb.congr rfl rfl) rfl rfl rfl rfl rfl) (fun _ => rfl)
      (by simp [startRun])
  case reset =>
    have hr : (resetSequence s).runState = s.runState := by simp [resetSequence, startReset]
    exact (steady_resetSequence hst).inv (fun _ => endReset_fault _) (by rw [hr]; exact h.not_stepping)
  case pause =>
    obtain ⟨b, hp⟩ := requestPause_eq s
    rw [hp]
    exact h.edited (hst.edited hst.memory (hb.congr rfl rfl) rfl rfl rfl rfl rfl) rfl rfl
  case setRegisters => exact h.edited (hst.edited hst.memory (hb.congr rfl rfl) rfl rfl rfl rfl rfl) rfl rfl
  case write a v =>
    have hm := memoryGood_debugWrite a v hst.memory
    exact h.edited (hst.edited hm (hb.congr rfl rfl) rfl rfl rfl rfl rfl) rfl rfl
  case addBreakpoint a condition =>
    exact h.edited (hst.edited hst.memory (breakpointsGood_add a condition hb) rfl rfl rfl rfl rfl) rfl rfl
  case removeBreakpoint id =>
    exact h.edited (hst.edited hst.memory (breakpointsGood_remove id hb) rfl rfl rfl rfl rfl) rfl rfl
  all_goals exact h

/-- A command keeps the invariant. -/
theorem inv_command {c : Command} {s t : State} (h : s.Inv) (ht : command c s = .next t) : t.Inv := by
  rcases command_cases ht with rfl | ⟨_, hp⟩
  · exact h
  · exact inv_perform h hp

/-- A tick keeps the invariant. -/
theorem inv_tick {s t : State} (h : s.Inv) (ht : tick s = .next t) : t.Inv := by
  rcases tick_cases ht with ⟨_, rfl⟩ | ⟨hr, _⟩
  · exact h
  · exact inv_tick_of_running h.steady hr ht

/-- The invariant does not speak of the host's script. -/
theorem inv_scriptTaken {s : State} (h : s.Inv) : (scriptTaken s).Inv :=
  h.edited (h.steady.edited h.steady.memory (h.breakpoints_good.congr rfl rfl) rfl rfl rfl rfl rfl) rfl rfl

/-- Settles O10: a command keeps the invariant, and so does a tick, whose sequence keeps the machine steady and whose
boundary check completes the invariant. -/
theorem everyStepKeepsTheInvariant : Obligations.EveryStepKeepsTheInvariant := by
  intro s t h hstep
  rcases step_cases hstep with ⟨c, _, hc⟩ | ⟨_, ht⟩
  · exact inv_command (inv_scriptTaken h) hc
  · exact inv_tick (inv_scriptTaken h) ht

/-- Settles O11: after reset nothing is stored, no breakpoint is set, and the machine is Paused at a boundary. -/
theorem resetMeetsTheInvariant : Obligations.ResetMeetsTheInvariant where
  mem_wf := memoryGood_reset.wf
  mem_small := memoryGood_reset.small
  acc_lt := by decide
  boundary := ⟨rfl, rfl⟩
  running_clean := fun _ => rfl
  not_stepping := by decide
  breakpoints_good := ⟨.nil, fun _ hb => (nomatch hb), fun _ hb => (nomatch hb)⟩

end Sys2Proof.Machine
end

section
/-! The reset sequence (70_reset_and_hazards.md R430): its seven cycles only read, so that what it leaves is the state before it
with S lowered by three, I set and PC loaded; then the reset command and construction, which run it. -/

namespace Sys2Proof.Machine

/-! ### What any cycle does with the interrupt inputs -/

/-- After any cycle `nmi_prev` and `irq_sampled` are the levels of the two inputs (R382). -/
theorem cycle_samples (u : MicroOp) (us : List MicroOp) (supplied : Option Byte) (s : State) :
    (cycle u us supplied s).nmiPrev = nmiLine (cycle u us supplied s) ∧
      (cycle u us supplied s).irqSampled = irqLine (cycle u us supplied s) := by
  rw [cycle_eq]
  unfold finishCycle MicroOp.late
  split <;> exact ⟨rfl, rfl⟩

/-- A sequence that begins with a cycle leaves `nmi_prev` and `irq_sampled` as the levels of the two inputs. -/
theorem runOps_samples {u : MicroOp} (us : List MicroOp) (bytes : List Byte) {s : State} (h : u.skipped s = false) :
    (runOps (u :: us) bytes s).nmiPrev = nmiLine (runOps (u :: us) bytes s) ∧
      (runOps (u :: us) bytes s).irqSampled = irqLine (runOps (u :: us) bytes s) := by
  rw [runOps_cons h]
  exact runOps_keeps (P := fun r => r.nmiPrev = nmiLine r ∧ r.irqSampled = irqLine r)
    (fun _ _ _ _ _ => cycle_samples ..) _ _ _ (cycle_samples ..)

/-- No poll point lies outside an instruction's sequence (R386). -/
theorem isPollPoint_of_ne_instr {s : State} (h : s.seq ≠ .instr) (left : Nat) : isPollPoint left s = false := by
  unfold isPollPoint
  split
  · exact absurd ‹_› h
  all_goals rfl

/-- No register action makes an interrupt next. -/
theorem act_intNext {u : MicroOp} {v : Byte} {s : State} (h : s.intNext = .none) : (u.act v s).intNext = .none := by
  cases u <;> first | exact h | rfl | (rename_i op; cases op <;> exact h)

/-- Outside an instruction's sequence a cycle makes no interrupt next (R386). -/
theorem cycle_intNext_none (u : MicroOp) (us : List MicroOp) (supplied : Option Byte) {s : State}
    (h : s.intNext = .none ∧ s.seq ≠ .instr) :
    (cycle u us supplied s).intNext = .none ∧ (cycle u us supplied s).seq ≠ .instr := by
  obtain ⟨hi, hs⟩ := h
  rw [cycle_eq]
  obtain ⟨r, hr⟩ : ∃ r, r = u.act (delivered u supplied s) (accessed u supplied s) := ⟨_, rfl⟩
  have hrs : r.seq = s.seq := by simp [hr]
  have hri : r.intNext = .none := by rw [hr]; exact act_intNext (by simpa using hi)
  unfold finishCycle
  rw [← hr]
  constructor
  · simp [isPollPoint_of_ne_instr (hrs ▸ hs), endOfCycle, poll, sampleInputs, clock, hri]
  · simp only [advance, late_seq, endOfCycle_seq, hrs]
    split
    · split <;> decide
    · exact hs

/-- Outside an instruction's sequence no interrupt becomes next (R386). -/
theorem runOps_intNext_none (ops : List MicroOp) (bytes : List Byte) {s : State} (hi : s.intNext = .none)
    (hs : s.seq ≠ .instr) : (runOps ops bytes s).intNext = .none :=
  (runOps_keeps (P := fun r => r.intNext = .none ∧ r.seq ≠ .instr) (fun u us v _ hr => cycle_intNext_none u us v hr)
    ops bytes s ⟨hi, hs⟩).1

/-- The vector chosen stays until a vector decision. -/
theorem cycle_vec {u : MicroOp} (hu : u ≠ .pushLoVec) (us : List MicroOp) (supplied : Option Byte) (s : State) :
    (cycle u us supplied s).vec = s.vec := by
  have hl : ∀ r : State, u.late r = r := fun r => if_neg hu
  rw [cycle_eq]
  simp [finishCycle, hl]

/-! ### The cycles of the reset sequence -/

/-- A lowered S is lowered in both of two states that agree. -/
theorem Same.withSp {s w : State} (h : Same s w) (k : Byte) : Same { s with sp := k } { w with sp := k } :=
  ⟨h.a, h.x, h.y, rfl, h.fN, h.fV, h.fD, h.fI, h.fZ, h.fC, h.mem, h.profile, h.halted, h.fault⟩

/-- A read cycle keeps what its register actions keep. -/
theorem cycle_same_of_read {u : MicroOp} {a : Addr} {r s : State} (hu : u.access s = .read a)
    (h : ∀ d, Same r (u.act d (busRead a d s))) (us : List MicroOp) (v : Option Byte) : Same r (cycle u us v s) := by
  have hacc : accessed u v s = busRead a (delivered u v s) s := by simp [accessed, delivered, hu]
  have hd := h (delivered u v s)
  rw [← hacc] at hd
  exact ⟨(cycle_a ..).trans hd.a, (cycle_x ..).trans hd.x, (cycle_y ..).trans hd.y, (cycle_sp ..).trans hd.sp,
    (cycle_fN ..).trans hd.fN, (cycle_fV ..).trans hd.fV, (cycle_fD ..).trans hd.fD, (cycle_fI ..).trans hd.fI,
    (cycle_fZ ..).trans hd.fZ, (cycle_fC ..).trans hd.fC, by simpa [cycle_mem, hu, hacc, busRead] using hd.mem,
    by simpa using hd.profile, (cycle_halted ..).trans hd.halted, fun hb => (cycle_fault ..).trans (hd.fault hb)⟩

/-- A dummy push lowers S and keeps the rest (R430 T3 to T5). -/
theorem stackDec_same (us : List MicroOp) (v : Option Byte) (s : State) :
    Same { s with sp := s.sp - 1 } (cycle .stackDec us v s) := by
  refine cycle_same_of_read (u := .stackDec) (s := s) rfl (fun _ => ?_) us v
  exact ⟨rfl, rfl, rfl, rfl, rfl, rfl, rfl, rfl, rfl, rfl, rfl, rfl, rfl, fun hb => faultAfter_eq (s := s) hb _⟩

/-- The read of the vector's low byte sets I and keeps the rest (R430 T6). -/
theorem vecLo_same (us : List MicroOp) (v : Option Byte) (s : State) :
    Same { s with fI := true } (cycle .vecLo us v s) := by
  refine cycle_same_of_read (u := .vecLo) (s := s) rfl (fun _ => ?_) us v
  exact ⟨rfl, rfl, rfl, rfl, rfl, rfl, rfl, rfl, rfl, rfl, rfl, rfl, rfl, fun hb => faultAfter_eq (s := s) hb _⟩

/-- The read of the vector's high byte loads PC and keeps the rest (R430 T7). -/
theorem vecHi_same (us : List MicroOp) (v : Option Byte) (s : State) : Same s (cycle .vecHi us v s) := by
  refine cycle_same_of_read (u := .vecHi) (s := s) rfl (fun _ => ?_) us v
  exact ⟨rfl, rfl, rfl, rfl, rfl, rfl, rfl, rfl, rfl, rfl, rfl, rfl, rfl, fun hb => faultAfter_eq (s := s) hb _⟩

/-- The reset sequence's cycles before the vector: two dummy fetches and three dummy pushes (R430 T1 to T5). -/
theorem resetOps_beforeVector (s : State) :
    ∃ w, runOps resetOps [] s = cycle .vecHi [] none (cycle .vecLo [.vecHi] none w) ∧
      Same { s with sp := s.sp - 3 } w ∧ w.vec = s.vec ∧ w.cycles = s.cycles + 5 := by
  obtain ⟨w2, hw2⟩ : ∃ x, x = cycle .dummyPC [.stackDec, .stackDec, .stackDec, .vecLo, .vecHi] none
      (cycle .dummyPC [.dummyPC, .stackDec, .stackDec, .stackDec, .vecLo, .vecHi] none s) := ⟨_, rfl⟩
  have h2 : Same s w2 := hw2 ▸ (quiet_same rfl _ _ _).trans (quiet_same rfl _ _ _)
  refine ⟨cycle .stackDec [.vecLo, .vecHi] none (cycle .stackDec [.stackDec, .vecLo, .vecHi] none
    (cycle .stackDec [.stackDec, .stackDec, .vecLo, .vecHi] none w2)), ?_, ?_, ?_, ?_⟩
  · rw [hw2]
    simp [resetOps, runOps, MicroOp.skipped, MicroOp.supply, MicroOp.fetches]
  · have h3 := (h2.withSp (w2.sp - 1)).trans (stackDec_same [.stackDec, .stackDec, .vecLo, .vecHi] none w2)
    have h4 := (h3.withSp _).trans (stackDec_same [.stackDec, .vecLo, .vecHi] none _)
    have h5 := (h4.withSp _).trans (stackDec_same [.vecLo, .vecHi] none _)
    have hsp : s.sp - 1#8 - 1#8 - 1#8 = s.sp - 3#8 := by bv_omega
    simpa [cycle_sp, MicroOp.act, h2.sp, hsp] using h5
  · simp [cycle_vec, hw2]
  · simp [hw2, Nat.add_assoc]

/-- What the reset sequence leaves (R44, R430): the state before it with S lowered by three, I set and the halted state, the
fault, the pending edge and the poll cleared, at a boundary with PC loaded from the reset vector, seven cycles on. -/
structure ResetOf (s t : State) : Prop where
  same       : Same { s with sp := s.sp - 3, fI := true, halted := false, fault := none } t
  boundary   : t.AtBoundary
  pc         : t.pc = join t.busLatch t.dl
  vector     : ∀ w, wordAt s.stored s.profile.vecReset (s.profile.vecReset + 1) = some w → t.pc = w
  cycles     : t.cycles = s.cycles + 7
  fault      : t.fault = none
  intNext    : t.intNext = .none
  nmiPending : t.nmiPending = false
  nmiPrev    : t.nmiPrev = nmiLine t
  irqSampled : t.irqSampled = irqLine t
  run        : t.runState = s.runState
  stop       : t.stopReason = s.stopReason
  points     : t.breakpoints = s.breakpoints
  nextId     : t.nextBreakpointId = s.nextBreakpointId
  pause      : t.pauseRequested = s.pauseRequested
  script     : t.commands = s.commands

/-- A word at two addresses is the word of the bytes they store. -/
theorem wordAt_eq_some {cells : Addr → Option Byte} {low high w : Addr} (h : wordAt cells low high = some w) :
    ∃ l h, cells low = some l ∧ cells high = some h ∧ join h l = w := by
  unfold wordAt at h
  split at h
  · next l b hl hb => exact ⟨l, b, hl, hb, Option.some.inj h⟩
  · cases h

/-- The reset sequence does what R430 says. -/
theorem resetSequence_resetOf (s : State) : ResetOf s (resetSequence s) := by
  obtain ⟨w, hw, hsame, hvec, hcyc⟩ := resetOps_beforeVector (startReset s)
  obtain ⟨x, hx⟩ : ∃ x, x = cycle .vecLo [.vecHi] none w := ⟨_, rfl⟩
  obtain ⟨t, ht⟩ : ∃ t, t = runOps resetOps [] (startReset s) := ⟨_, rfl⟩
  have htx : t = cycle .vecHi [] none x := by rw [ht, hw, hx]
  have hwx : Same { w with fI := true } x := hx ▸ vecLo_same ..
  have hxt : Same x t := htx ▸ vecHi_same ..
  have hwf : Same { startReset s with sp := s.sp - 3, fI := true } { w with fI := true } :=
    ⟨hsame.a, hsame.x, hsame.y, hsame.sp, hsame.fN, hsame.fV, hsame.fD, rfl, hsame.fZ, hsame.fC, hsame.mem,
      hsame.profile, hsame.halted, hsame.fault⟩
  have hst := (hwf.trans hwx).trans hxt
  have hdl : t.dl = busValue w.vec w := by
    rw [htx, hx]; simp [cycle_dl, MicroOp.act, delivered, MicroOp.access]
  have hbus : t.busLatch = busValue (w.vec + 1) x := by
    rw [htx, cycle_busLatch]; simp [delivered, MicroOp.access, hx, cycle_vec]
  have hpc : t.pc = join t.busLatch t.dl := by
    rw [htx]; simp [cycle_pc, cycle_dl, cycle_busLatch, MicroOp.act]
  have hsmp : t.nmiPrev = nmiLine t ∧ t.irqSampled = irqLine t := ht ▸ runOps_samples _ _ rfl
  have hb : t.AtBoundary := ht ▸ runOps_boundary _ _ rfl
  show ResetOf s (endReset (runOps resetOps [] (startReset s)))
  rw [← ht]
  refine {
    same := ⟨hst.a, hst.x, hst.y, hst.sp, hst.fN, hst.fV, hst.fD, hst.fI, hst.fZ, hst.fC, hst.mem, hst.profile,
      hst.halted, fun _ => rfl⟩
    boundary := ⟨hb.seq_eq, hb.queue_eq⟩
    pc := hpc
    vector := fun word h => ?_
    cycles := ?_
    fault := rfl
    intNext := ?_
    nmiPending := rfl
    nmiPrev := hsmp.1
    irqSampled := hsmp.2
    run := by simp [ht, startReset]
    stop := by simp [ht, startReset]
    points := by simp [ht, startReset]
    nextId := by simp [ht, startReset]
    pause := by simp [ht, startReset]
    script := by simp [ht, startReset] }
  · obtain ⟨l, b, hl, hb, rfl⟩ := wordAt_eq_some h
    rw [hvec] at hdl hbus
    have hlo : t.dl = l := hdl.trans (hsame.busValue hl)
    have hhi : t.busLatch = b := hbus.trans ((hwf.trans hwx).busValue hb)
    show t.pc = _
    rw [hpc, hlo, hhi]
  · rw [endReset_cycles, htx, cycle_cycles, hx, cycle_cycles, hcyc]
    rfl
  · rw [endReset_intNext, ht]
    exact runOps_intNext_none _ _ rfl (by simp [startReset])

/-! ### The statements -/

/-- Settles O13: the model's reset sequence, run on the power-on state. -/
theorem resetStateHasTheSpecsValues : Obligations.ResetStateHasTheSpecsValues := by
  unfold Obligations.ResetStateHasTheSpecsValues
  decide

/-- Settles O14: accepted while Paused, the command runs the reset sequence on the state with the script entry taken. -/
theorem resetCommandRunsTheResetSequence : Obligations.ResetCommandRunsTheResetSequence := by
  intro s _ hc hp
  have h := resetSequence_resetOf (scriptTaken s)
  have hstep : step s = .next (resetSequence (scriptTaken s)) := by
    rw [step_command hc]
    have hm : misuse .reset (scriptTaken s) = none := if_pos hp
    simp only [command, hm, perform]
  exact ⟨_, hstep, h.boundary, h.same.view, h.pc, h.vector, h.cycles, h.same.halted, h.fault, h.intNext, h.nmiPending,
    h.nmiPrev, h.irqSampled, h.run.trans hp, h.stop, h.points, h.nextId, h.same.profile, h.script⟩

/-- Settles O15: of a valid profile, construction runs the reset sequence on the power-on state. -/
theorem constructionRunsTheResetSequence : Obligations.ConstructionRunsTheResetSequence := by
  intro r v cells inputs
  refine ⟨fun c hc => by simp only [construct, hc], fun p hp => ?_⟩
  have h := resetSequence_resetOf (powerOnWith p v cells inputs)
  have hh := h.same.halted
  refine ⟨{ resetSequence (powerOnWith p v cells inputs) with runState := .paused }, by simp only [construct, hp],
    h.same.profile, ⟨h.boundary.seq_eq, h.boundary.queue_eq⟩, ?_, rfl, h.same.a, h.same.x, h.same.y, h.same.sp, h.same.fI,
    h.same.fN, h.same.fV, h.same.fD, h.same.fZ, h.same.fC, h.same.mem, ?_, h.pc, h.cycles, hh, h.intNext,
    h.fault, h.nmiPending, h.points, h.pause, h.stop, h.nmiPrev, h.irqSampled⟩
  · exact h.boundary.seq_eq.trans (by rw [hh]; rfl)
  · intro w hw
    refine h.vector w ?_
    rw [← hw]
    exact congrArg (wordAt · _ _) h.same.stored.symm

end Sys2Proof.Machine
end

section
/-! The halted state, which only a reset leaves (45_undocumented.md R345, 60_exceptions.md R418), and inspection
(60_exceptions.md R408). -/

namespace Sys2Proof.Machine

/-! ### The halted state -/

/-- A tick of a halted machine that is not Paused is one cycle of the clock, and the boundary check. -/
theorem tick_of_halted {s : State} (hh : s.halted = true) (hr : s.runState ≠ .paused) :
    tick s = .next (boundaryCheck (haltedCycle s)) := by
  have hs : runSequence s = .next (haltedCycle s) := if_pos hh
  simp only [tick, if_neg hr, runAndCheck, hs]

/-- The programmer's view shows nothing of the boundary check. -/
theorem boundaryCheck_view (s : State) : (boundaryCheck s).view = s.view := rfl

/-- The programmer's view shows nothing of a halted cycle. -/
theorem haltedCycle_view (s : State) : (haltedCycle s).view = s.view := rfl

/-- The programmer's view shows nothing of the host's script. -/
theorem scriptTaken_view (s : State) : (scriptTaken s).view = s.view := rfl

/-- A tick leaves a halted machine halted. -/
theorem halted_tick {s t : State} (hh : s.halted = true) (h : tick s = .next t) : t.halted = true := by
  rcases tick_cases h with ⟨_, rfl⟩ | ⟨hr, _⟩
  · exact hh
  · rw [tick_of_halted hh hr] at h
    obtain rfl := Host.Outcome.next.inj h
    exact hh

/-- A command other than a reset leaves a halted machine halted. -/
theorem halted_command {c : Command} {s t : State} (hh : s.halted = true) (hc : c ≠ .reset)
    (h : command c s = .next t) : t.halted = true := by
  rcases command_cases h with rfl | ⟨_, hp⟩
  · exact hh
  cases c
  case stepInstruction => exact halted_tick (s := startRun .steppingInstruction s) hh hp
  case reset => exact absurd rfl hc
  all_goals
    obtain rfl := Host.Outcome.next.inj hp
    exact hh

/-- Settles O27: neither a tick nor a command but a reset leaves the halted state, and a tick is a bare cycle of the clock. -/
theorem haltedUntilReset : Obligations.HaltedUntilReset := by
  intro s t _ hh h
  refine ⟨fun hc => ?_, fun ⟨hn, hr⟩ => ?_⟩
  · rcases step_cases h with ⟨c, hs, hcmd⟩ | ⟨_, ht⟩
    · exact halted_command (s := scriptTaken s) hh (fun he => hc (he ▸ hs)) hcmd
    · exact halted_tick (s := scriptTaken s) hh ht
  · rw [step_tick hn, tick_of_halted (s := scriptTaken s) hh hr] at h
    obtain rfl := Host.Outcome.next.inj h
    refine ⟨?_, ?_, ?_, ?_, ?_⟩
    · rw [boundaryCheck_view, haltedCycle_view, scriptTaken_view]
    all_goals simp [haltedCycle, scriptTaken]

/-! ### Inspection -/

/-- The eight bits of a byte, as the number they make. -/
theorem ofBool_append_eq (n v u b d i z c : Bool) :
    BitVec.ofBool n ++ BitVec.ofBool v ++ BitVec.ofBool u ++ BitVec.ofBool b ++ BitVec.ofBool d ++ BitVec.ofBool i ++
        BitVec.ofBool z ++ BitVec.ofBool c =
      BitVec.ofNat 8 (128 * flagNat n + 64 * flagNat v + 32 * flagNat u + 16 * flagNat b + 8 * flagNat d +
        4 * flagNat i + 2 * flagNat z + flagNat c) := by
  revert n v u b d i z c
  decide

/-- `Pbyte(b)` is the number that the view's flags make (R27). -/
theorem pByte_eq_pNat (b : Bool) (s : State) : pByte b s = BitVec.ofNat 8 (s.view.pNat b) :=
  ofBool_append_eq s.fN s.fV true b s.fD s.fI s.fZ s.fC

/-- The debugger's read of a byte of RAM or ROM (R83). -/
theorem peek_of_stored {s : State} {a : Addr} {v : Byte} (h : s.stored a = some v) : peek a s = v := by
  unfold State.stored at h
  unfold peek
  split at h <;> simp_all

/-- The k-th byte of a window is the byte at the k-th address from its start, wrapping at $FFFF (R408). -/
theorem memoryWindow_getElem? {start : Addr} {length k : Nat} (s : State) (hk : k < length) :
    (memoryWindow start length s)[k]? = some (peek (start + BitVec.ofNat 16 k) s) := by
  simp [memoryWindow, hk]

/-- Settles O60: inspection is a function of the state that leaves it as it was. -/
theorem inspectionReadsAndChangesNothing : Obligations.InspectionReadsAndChangesNothing := by
  intro s start length hp hc
  have hmis : ∀ r : State, r.runState = .paused → misuse (.inspect start length) r = none := fun r hr => if_pos hr
  have hres : ∀ r : State, r.runState = .paused →
      respond (.inspect start length) r = .inspection (inspect start length r) := fun r hr => by
    simp only [respond, hmis r hr]
  refine ⟨?_, inspect start length s, hres s hp, hres (scriptTaken s) hp, ?_, ?_, ?_, rfl, rfl, rfl, rfl, rfl, rfl, rfl⟩
  · rw [step_command hc]
    simp only [command, hmis (scriptTaken s) hp, perform]
  · exact congrArg (Registers.mk s.a s.x s.y s.sp s.pc) (pByte_eq_pNat false s)
  · simp [inspect, memoryWindow]
  · intro k v hk hv
    rw [← peek_of_stored hv]
    exact memoryWindow_getElem? s hk

end Sys2Proof.Machine
end

section
/-! Who writes and who reads a register: the registers and flags each micro-operation may write, and from these the write
lists of 10_state.md R21 to R24 and R29 to R34; and the decimal flag, which nothing but a push of P reads (R32). -/

namespace Sys2Proof.Machine

/-! ### The registers and flags a micro-operation may write -/

/-- The registers and flags that the write lists speak of; N and Z have one list (R30, R34). -/
inductive Reg where
  | a | x | y | sp | fC | fZN | fI | fD | fV
  deriving DecidableEq

/-- The register or flag holds in `t` what it held in `s`. -/
def Reg.Same (r : Reg) (s t : State) : Prop :=
  match r with
  | .a => t.a = s.a
  | .x => t.x = s.x
  | .y => t.y = s.y
  | .sp => t.sp = s.sp
  | .fC => t.fC = s.fC
  | .fZN => t.fZ = s.fZ ∧ t.fN = s.fN
  | .fI => t.fI = s.fI
  | .fD => t.fD = s.fD
  | .fV => t.fV = s.fV

/-- What an operation of the read class writes. -/
def ReadOp.writes : ReadOp → List Reg
  | .lda | .and | .ora | .eor | .ane => [.a, .fZN]
  | .ldx => [.x, .fZN]
  | .ldy => [.y, .fZN]
  | .adc | .sbc | .usbc | .arr => [.a, .fZN, .fC, .fV]
  | .cmp | .cpx | .cpy => [.fZN, .fC]
  | .bit => [.fZN, .fV]
  | .nop => []
  | .lax | .lxa => [.a, .x, .fZN]
  | .las => [.a, .x, .sp, .fZN]
  | .anc | .alr => [.a, .fZN, .fC]
  | .sbx => [.x, .fZN, .fC]

/-- What an operation of the read-modify-write class writes. -/
def RmwOp.writes : RmwOp → List Reg
  | .asl | .lsr | .rol | .ror | .dcp => [.fZN, .fC]
  | .inc | .dec => [.fZN]
  | .slo | .rla | .sre => [.a, .fZN, .fC]
  | .rra | .isc => [.a, .fZN, .fC, .fV]

/-- What an implied or accumulator operation writes. -/
def ImpliedOp.writes : ImpliedOp → List Reg
  | .tax | .tsx | .inx | .dex => [.x, .fZN]
  | .tay | .iny | .dey => [.y, .fZN]
  | .txa | .tya => [.a, .fZN]
  | .txs => [.sp]
  | .aslA | .lsrA | .rolA | .rorA => [.a, .fZN, .fC]
  | .clc | .sec => [.fC]
  | .cli | .sei => [.fI]
  | .clv => [.fV]
  | .cld | .sed => [.fD]
  | .nop => []

/-- What an unstable store writes. -/
def UnstableOp.writes : UnstableOp → List Reg
  | .tas => [.sp]
  | .sha | .shx | .shy => []

/-- What a micro-operation writes. -/
def MicroOp.writes : MicroOp → List Reg
  | .imm op | .read op => op.writes
  | .modify op => op.writes
  | .implied op => op.writes
  | .writeUnstable op => op.writes
  | .stackInc | .stackDec | .pullLo | .pushA | .pushPB | .pushP | .pushHi | .pushLo | .pushLoVec => [.sp]
  | .pullA => [.a, .fZN]
  | .pullP => [.fC, .fZN, .fI, .fD, .fV]
  | .pullPInc => [.sp, .fC, .fZN, .fI, .fD, .fV]
  | .vecLo => [.fI]
  | _ => []

/-- An operation of the read class writes nothing off its list. -/
theorem readOp_same_of_not_writes {op : ReadOp} {r : Reg} (h : r ∉ op.writes) (m : Byte) (s : State) :
    r.Same s (op.apply m s) := by
  cases op <;> cases r <;> first | exact absurd (by decide) h | exact rfl | exact ⟨rfl, rfl⟩

/-- An operation of the read-modify-write class writes nothing off its list. -/
theorem rmwOp_same_of_not_writes {op : RmwOp} {r : Reg} (h : r ∉ op.writes) (m : Byte) (s : State) :
    r.Same s (op.apply m s) := by
  cases op <;> cases r <;> first | exact absurd (by decide) h | exact rfl

/-- An implied operation writes nothing off its list. -/
theorem impliedOp_same_of_not_writes {op : ImpliedOp} {r : Reg} (h : r ∉ op.writes) (s : State) :
    r.Same s (op.apply s) := by
  cases op <;> cases r <;> first | exact absurd (by decide) h | exact rfl | exact ⟨rfl, rfl⟩

/-- An unstable store writes nothing off its list. -/
theorem unstableOp_same_of_not_writes {op : UnstableOp} {r : Reg} (h : r ∉ op.writes) (s : State) :
    r.Same s (op.finish s) := by
  cases op <;> cases r <;> first | exact absurd (by decide) h | exact rfl | exact ⟨rfl, rfl⟩

/-- A register action writes nothing off the list of its micro-operation. -/
theorem act_same_of_not_writes {u : MicroOp} {r : Reg} (h : r ∉ u.writes) (v : Byte) (s : State) :
    r.Same s (u.act v s) := by
  cases u
  case imm op => cases r <;> exact readOp_same_of_not_writes (op := op) h v { s with pc := s.pc + 1 }
  case read op => exact readOp_same_of_not_writes h v s
  case modify op => exact rmwOp_same_of_not_writes h s.dl s
  case implied op => exact impliedOp_same_of_not_writes h s
  case writeUnstable op => exact unstableOp_same_of_not_writes h s
  all_goals cases r <;> first | exact absurd (by decide) h | exact rfl | exact ⟨rfl, rfl⟩

/-! ### The write lists -/

theorem Reg.Same.refl (r : Reg) (s : State) : r.Same s s := by
  cases r
  case fZN => exact ⟨rfl, rfl⟩
  all_goals exact rfl

theorem Reg.Same.trans {r : Reg} {s t u : State} (h : r.Same s t) (k : r.Same t u) : r.Same s u := by
  cases r
  case fZN => exact ⟨k.1.trans h.1, k.2.trans h.2⟩
  all_goals exact Eq.trans k h

/-- A cycle writes nothing off the list of its micro-operation. -/
theorem cycle_same_of_not_writes {u : MicroOp} {r : Reg} (h : r ∉ u.writes) (us : List MicroOp) (v : Option Byte)
    (s : State) : r.Same s (cycle u us v s) := by
  have hact := act_same_of_not_writes h (delivered u v s) (accessed u v s)
  cases r <;>
    simpa [Reg.Same, cycle_a, cycle_x, cycle_y, cycle_sp, cycle_fC, cycle_fZ, cycle_fN, cycle_fI, cycle_fD,
      cycle_fV] using hact

/-- A sequence writes nothing off the lists of its cycles. -/
theorem runOps_same_of_not_writes {ops : List MicroOp} {r : Reg} (h : ∀ u ∈ ops, r ∉ u.writes) (bytes : List Byte)
    (s : State) : r.Same s (runOps ops bytes s) := by
  induction ops generalizing bytes s with
  | nil => exact .refl r s
  | cons u us ih =>
    have hus : ∀ w ∈ us, r ∉ w.writes := fun w hw => h w (List.mem_cons_of_mem u hw)
    unfold runOps
    split
    · exact ih hus _ _
    · exact (cycle_same_of_not_writes (h u List.mem_cons_self) _ _ _).trans (ih hus _ _)

/-- The mnemonics that write each register and flag (R21 to R24, R29 to R34). -/
def Reg.writers : Reg → List Mnemonic
  | .a => [ .lda, .pla, .txa, .tya, .adc, .sbc, .and, .ora, .eor, .asl, .lsr, .rol, .ror, .lax, .slo, .rla,
      .sre, .rra, .isc, .anc, .alr, .arr, .ane, .lxa, .las, .usbc ]
  | .x => [.ldx, .tax, .tsx, .inx, .dex, .lax, .sbx, .lxa, .las]
  | .y => [.ldy, .tay, .iny, .dey]
  | .sp => [.txs, .pha, .php, .pla, .plp, .jsr, .rts, .rti, .brk, .las, .tas]
  | .fC => [ .adc, .sbc, .cmp, .cpx, .cpy, .asl, .lsr, .rol, .ror, .clc, .sec, .plp, .rti, .slo, .rla, .sre,
      .rra, .dcp, .isc, .anc, .alr, .arr, .sbx, .usbc ]
  | .fZN => [ .lda, .ldx, .ldy, .tax, .tay, .txa, .tya, .tsx, .pla, .adc, .sbc, .and, .ora, .eor, .cmp, .cpx,
      .cpy, .bit, .inc, .dec, .inx, .iny, .dex, .dey, .asl, .lsr, .rol, .ror, .plp, .rti ] ++
      [ .lax, .slo, .rla, .sre, .rra, .dcp, .isc, .anc, .alr, .arr, .sbx, .las, .ane, .lxa, .usbc ]
  | .fI => [.sei, .cli, .plp, .rti, .brk]
  | .fD => [.sed, .cld, .plp, .rti]
  | .fV => [.adc, .sbc, .bit, .clv, .plp, .rti, .rra, .isc, .arr, .usbc]

/-- The opcodes whose sequence writes a register or flag have their mnemonic on its list. -/
theorem not_writes_of_not_writer (r : Reg) (op : Byte) (h : (opInfo op).mnemonic ∉ r.writers) :
    ∀ u ∈ emulatedSequence op, r ∉ u.writes := by
  cases r <;> revert op <;> decide

/-- An instruction off a register's or a flag's list leaves it. -/
theorem exec_same_of_not_writer {r : Reg} {i : Instr} {s t : State} (hw : i.wellFormed = true)
    (ht : exec i s = .next t) (h : i.mnemonic ∉ r.writers) : r.Same s t := by
  rw [exec_eq i s hw] at ht
  obtain rfl := Host.Outcome.next.inj ht
  have hstart : r.Same s (startInstr s) := by
    cases r
    case fZN => exact ⟨rfl, rfl⟩
    all_goals exact rfl
  have hops : ∀ u ∈ sequenceOf s.profile.policy i.opcode, r ∉ u.writes :=
    sequenceOf_all (List.not_mem_nil) (not_writes_of_not_writer r i.opcode h) _
  exact hstart.trans (runOps_same_of_not_writes hops _ _)

/-- Settles O53: each clause is the write list of one register or flag. -/
theorem registersAndFlagsHaveNoOtherWriter : Obligations.RegistersAndFlagsHaveNoOtherWriter := by
  intro i s t hw ht
  exact ⟨exec_same_of_not_writer (r := .a) hw ht, exec_same_of_not_writer (r := .x) hw ht,
    exec_same_of_not_writer (r := .y) hw ht, exec_same_of_not_writer (r := .sp) hw ht,
    exec_same_of_not_writer (r := .fC) hw ht,
    fun hdoc hundoc => exec_same_of_not_writer (r := .fZN) hw ht (by
      simpa only [Reg.writers, List.mem_append, not_or] using ⟨hdoc, hundoc⟩),
    exec_same_of_not_writer (r := .fI) hw ht, exec_same_of_not_writer (r := .fD) hw ht,
    exec_same_of_not_writer (r := .fV) hw ht⟩

/-! ### The decimal flag -/

/-- The state with another D. -/
def State.withD (d : Bool) (s : State) : State := { s with fD := d }

/-- The micro-operation neither writes D nor pushes it. -/
def MicroOp.ignoresD (u : MicroOp) : Prop := Reg.fD ∉ u.writes ∧ u ≠ .pushPB ∧ u ≠ .pushP

/-- A cycle's access depends on D only where P is pushed. -/
theorem access_withD {u : MicroOp} (hpb : u ≠ .pushPB) (hp : u ≠ .pushP) (d : Bool) (s : State) :
    u.access (s.withD d) = u.access s := by
  cases u
  case pushPB => exact absurd rfl hpb
  case pushP => exact absurd rfl hp
  case modify op => cases op <;> rfl
  all_goals rfl

/-- The register actions of a micro-operation that does not write D do the same whatever D holds. -/
theorem act_withD {u : MicroOp} (hw : Reg.fD ∉ u.writes) (d : Bool) (v : Byte) (s : State) :
    u.act v (s.withD d) = (u.act v s).withD d := by
  cases u
  case imm op => cases op <;> rfl
  case read op => cases op <;> rfl
  case modify op => cases op <;> rfl
  case implied op => cases op <;> first | exact absurd (by decide) hw | rfl
  case pullP => exact absurd (by decide) hw
  case pullPInc => exact absurd (by decide) hw
  all_goals rfl

/-- Which cycles are skipped does not depend on D. -/
theorem skipped_withD (u : MicroOp) (d : Bool) (s : State) : u.skipped (s.withD d) = u.skipped s :=
  skipped_congr u rfl rfl rfl rfl rfl

/-- How many cycles are left does not depend on D. -/
theorem remaining_withD (us : List MicroOp) (d : Bool) (s : State) : remaining us (s.withD d) = remaining us s := by
  simp only [remaining, skipped_withD]

/-- The end of a cycle does the same whatever D holds. -/
theorem finishCycle_withD {u : MicroOp} (h : u.ignoresD) (us : List MicroOp) (v : Byte) (d : Bool) (s : State) :
    finishCycle u us v (s.withD d) = (finishCycle u us v s).withD d := by
  have hlate : ∀ r : State, u.late (r.withD d) = (u.late r).withD d := fun r => by
    unfold MicroOp.late
    split <;> rfl
  have hend : ∀ (b : Bool) (r : State), endOfCycle b (r.withD d) = (endOfCycle b r).withD d := fun _ _ => rfl
  have hpoll : ∀ (k : Nat) (r : State), isPollPoint k (r.withD d) = isPollPoint k r := fun _ _ => rfl
  have hadv : ∀ r : State, advance us (r.withD d) = (advance us r).withD d := fun r => by
    simp only [advance, remaining_withD, skipped_withD]
    rfl
  simp only [finishCycle, act_withD h.1, remaining_withD, hpoll, hend, hlate, hadv]

/-- A cycle does the same whatever D holds. -/
theorem cycle_withD {u : MicroOp} (h : u.ignoresD) (us : List MicroOp) (v : Option Byte) (d : Bool) (s : State) :
    cycle u us v (s.withD d) = (cycle u us v s).withD d := by
  have hdel : delivered u v (s.withD d) = delivered u v s := by
    unfold delivered
    rw [access_withD h.2.1 h.2.2]
    cases u.access s <;> rfl
  have hacc : accessed u v (s.withD d) = (accessed u v s).withD d := by
    unfold accessed
    rw [access_withD h.2.1 h.2.2]
    cases u.access s <;> rfl
  rw [cycle_eq, cycle_eq, hdel, hacc, finishCycle_withD h]

/-- A sequence does the same whatever D holds. -/
theorem runOps_withD {ops : List MicroOp} (h : ∀ u ∈ ops, u.ignoresD) (bytes : List Byte) (d : Bool) (s : State) :
    runOps ops bytes (s.withD d) = (runOps ops bytes s).withD d := by
  induction ops generalizing bytes s with
  | nil => rfl
  | cons u us ih =>
    have hus : ∀ w ∈ us, w.ignoresD := fun w hw => h w (List.mem_cons_of_mem u hw)
    unfold runOps
    rw [skipped_withD, cycle_withD (h u List.mem_cons_self)]
    split
    · exact ih hus _ _
    · exact ih hus _ _

/-- The opcodes whose sequence writes or pushes D are those of PHP, BRK, PLP, RTI, SED and CLD, none of them illegal. -/
theorem ignoresD_of_opcode (op : Byte)
    (h : (opInfo op).mnemonic ∉ ([.php, .brk, .plp, .rti, .sed, .cld] : List Mnemonic) ∨ illegal op = true) :
    ∀ u ∈ emulatedSequence op, u.ignoresD := by
  unfold MicroOp.ignoresD
  revert op
  decide

/-- Settles O54: exec runs the sequence of the instruction's opcode, or of an illegal one, and each of its cycles ignores D. -/
theorem decimalFlagHasNoEffect : Obligations.DecimalFlagHasNoEffect := by
  intro i s t d hm ht
  obtain ⟨op, hop, he⟩ := exec_runs i
  have hmn : (opInfo op).mnemonic ∉ ([.php, .brk, .plp, .rti, .sed, .cld] : List Mnemonic) ∨ illegal op = true :=
    hop.imp (fun h => by rw [h]; exact hm) id
  have hseq : ∀ u ∈ sequenceOf s.profile.policy op, u.ignoresD :=
    sequenceOf_all (by unfold MicroOp.ignoresD; decide) (ignoresD_of_opcode op hmn) _
  rw [he s] at ht
  obtain rfl := Host.Outcome.next.inj ht
  rw [he]
  exact congrArg Host.Outcome.next (runOps_withD hseq (encode i) d (startInstr s))

end Sys2Proof.Machine
end

section
/-! Open bus and BusFault (20_memory.md R64, 60_exceptions.md R372 to R375): where a cycle's access records a fault, what an
absolute operand's fetches leave on the bus, and from these the loads, stores and modifications at an address that answers
`bus_latch`. -/

namespace Sys2Proof.Machine

/-! ### The fault record of a cycle -/

/-- The address of a bus access. -/
def Access.address : Access → Addr
  | .read a => a
  | .write a _ => a

/-- The fault record after any cycle but a trapped fetch is the one its access leaves. -/
theorem cycle_fault_eq {u : MicroOp} (hu : u ≠ .opcodeTrap) (us : List MicroOp) (v : Option Byte) (s : State) :
    (cycle u us v s).fault = faultAfter (u.access s).address s := by
  rw [cycle_fault, act_fault hu]
  unfold accessed
  cases u.access s <;> rfl

/-- An access that is not out of range leaves the fault record (R375). -/
theorem faultAfter_of_inRange {s : State} {a : Addr} (h : (target s a).kind ≠ .outOfRange) :
    faultAfter a s = s.fault := by
  unfold faultAfter
  split
  · exact absurd ‹_› h
  · rfl

/-- An out-of-range access records a BusFault where no record stands (R374, R375). -/
theorem faultAfter_of_outOfRange {s : State} {a : Addr} (h : (target s a).kind = .outOfRange) (hf : s.fault = none) :
    faultAfter a s = some ⟨.hardwareFault, 2, a, s.ir, s.cycles + 1⟩ := by
  simp only [faultAfter, h, hf, hardwareFault, Cause.code]

/-- A standing fault stops the machine at the boundary (R404, R407). -/
theorem boundaryCheck_of_fault {t : State} {f : FaultRecord} (h : t.fault = some f) :
    (boundaryCheck t).runState = .paused ∧ (boundaryCheck t).stopReason = .fault := by
  have hs : boundaryStop t = some .fault := if_pos (by rw [h]; rfl)
  constructor
  · show runStateAfter (boundaryStop t) t = _
    rw [hs]; rfl
  · show (boundaryStop t).getD _ = _
    rw [hs]; rfl

/-! ### What the fetches of an operand leave -/

/-- A read that nothing answers returns the last byte transferred (R64). -/
theorem busValue_of_openBus {s : State} {a : Addr} (h : s.openBus a) : busValue a s = s.busLatch := by
  unfold busValue
  rcases h with h | h | ⟨chip, writeOnly, h, hm⟩
  · rw [h]
  · rw [h]
  · rw [h]
    exact if_pos (List.contains_iff_mem.mpr hm)

/-- An address that nothing answers is the same in every state with the profile. -/
theorem Same.openBus {s w : State} (h : Same s w) {a : Addr} (ha : s.openBus a) : w.openBus a := by
  unfold State.openBus
  rw [h.target]
  exact ha

/-- The fetches of an absolute operand leave its high byte on the bus and the opcode in IR, and record no fault where none
of their addresses is out of range. -/
theorem abs_fetched (o : Byte) (a : Addr) (rest : List MicroOp) (s : State) :
    ∃ w, runOps ([.opcode, .argLo, .argHi] ++ rest) [o, lo a, hi a] (startInstr s) = runOps rest [] w ∧
      At s w 3 3 a [] ∧ w.busLatch = hi a ∧ w.ir = o ∧
      ((∀ k, k < 3 → (target s (s.pc + BitVec.ofNat 16 k)).kind ≠ .outOfRange) → w.fault = s.fault) := by
  obtain ⟨w1, hw1⟩ : ∃ x, x = cycle .opcode (.argLo :: .argHi :: rest) (some o) (startInstr s) := ⟨_, rfl⟩
  obtain ⟨w2, hw2⟩ : ∃ x, x = cycle .argLo (.argHi :: rest) (some (lo a)) w1 := ⟨_, rfl⟩
  obtain ⟨w3, hw3⟩ : ∃ x, x = cycle .argHi rest (some (hi a)) w2 := ⟨_, rfl⟩
  have h1 : Same s w1 := hw1 ▸ (Same.start s).trans (quiet_same rfl _ _ _)
  have h2 : Same s w2 := hw2 ▸ h1.trans (quiet_same rfl _ _ _)
  have p1 : w1.pc = s.pc + 1 := by rw [hw1]; simp [cycle_pc, MicroOp.act, startInstr]
  have p2 : w2.pc = s.pc + 2 := by rw [hw2]; simp [cycle_pc, MicroOp.act, p1, pc2]
  refine ⟨w3, ?_, ⟨hw3 ▸ h2.trans (quiet_same rfl _ _ _), ?_, ?_, ?_, ⟨_, rfl⟩⟩, ?_, ?_, fun hin => ?_⟩
  · rw [hw3, hw2, hw1]
    simp [runOps, MicroOp.skipped, MicroOp.rest, MicroOp.supply, MicroOp.fetches]
  · rw [hw3]; simp only [cycle_pc, MicroOp.act, accessed_pc, p2]; bv_omega
  · simp [hw3, hw2, hw1, startInstr]
  · rw [hw3, hw2]; simp [cycle_ad, MicroOp.act, delivered, MicroOp.access]
  · rw [hw3]; simp [cycle_busLatch, delivered, MicroOp.access]
  · rw [hw3, hw2, hw1]; simp [cycle_ir, MicroOp.act, delivered, MicroOp.access]
  · have f1 : w1.fault = s.fault := by
      rw [hw1, cycle_fault_eq (by decide)]
      refine faultAfter_of_inRange ?_
      show (target s s.pc).kind ≠ .outOfRange
      simpa using hin 0 (by decide)
    have f2 : w2.fault = w1.fault := by
      rw [hw2, cycle_fault_eq (by decide)]
      refine faultAfter_of_inRange ?_
      show (target w1 w1.pc).kind ≠ .outOfRange
      rw [h1.target, p1]
      exact hin 1 (by decide)
    rw [hw3, cycle_fault_eq (by decide), ← f1, ← f2]
    refine faultAfter_of_inRange ?_
    show (target w2 w2.pc).kind ≠ .outOfRange
    rw [h2.target, p2]
    exact hin 2 (by decide)

/-- The fetches of a zero-page operand leave it on the bus. -/
theorem zp_fetched (o z : Byte) (rest : List MicroOp) (s : State) :
    ∃ w, runOps ([.opcode, .argLo] ++ rest) [o, z] (startInstr s) = runOps rest [] w ∧
      At s w 2 2 (zeroPage z) [] ∧ w.busLatch = z := by
  refine ⟨_, by simp [runOps, MicroOp.skipped, MicroOp.rest, MicroOp.supply, MicroOp.fetches]; rfl,
    ⟨?_, ?_, ?_, ?_, ⟨_, rfl⟩⟩, ?_⟩
  · exact ((Same.start s).trans (quiet_same rfl _ _ _)).trans (quiet_same rfl _ _ _)
  · simp [cycle_pc, MicroOp.act, startInstr, pc2]
  · simp [startInstr]
  · simp [cycle_ad, MicroOp.act, delivered, MicroOp.access]
  · simp [cycle_busLatch, delivered, MicroOp.access]

/-- The last cycle of a read at an address that nothing answers takes the byte that the fetches left (R64). -/
theorem read_openBus {s w : State} {n k : Nat} {ea : Addr} {D : List PortEvent} (op : ReadOp) (h : At s w n k ea D)
    (ho : s.openBus ea) :
    ∃ t f, runOps [.read op] [] w = t ∧ t.busLatch = w.busLatch ∧
      t.view = (op.apply w.busLatch (s.withFree f)).view ∧ t.pc = s.pc + BitVec.ofNat 16 n ∧
      t.fault = faultAfter ea w := by
  obtain ⟨t, f, ht, _, hpc, _, _, _, hview, _, _⟩ := read_last op h
  have hc : t = cycle (.read op) [] none w := by
    rw [← ht]; simp [runOps, MicroOp.skipped, MicroOp.supply, MicroOp.fetches]
  have hb : t.busLatch = w.busLatch := by
    rw [hc, cycle_busLatch]
    simp [delivered, MicroOp.access, h.ad, busValue_of_openBus (h.same.openBus ho)]
  refine ⟨t, f, ht, hb, hb ▸ hview, hpc, ?_⟩
  rw [hc, cycle_fault_eq (by simp), ← h.ad]
  rfl

/-- A write outside RAM changes no memory (R63, R375). -/
theorem cycle_mem_of_notRam {u : MicroOp} {a : Addr} {v : Byte} {s : State} (hu : u.access s = .write a v)
    (hk : (target s a).kind ≠ .ram) (us : List MicroOp) (x : Option Byte) : (cycle u us x s).mem = s.mem := by
  rw [cycle_mem, hu]
  exact memAfterWrite_notRam _ _ _ hk

/-! ### A standing record -/

/-- The opcode is the first byte of the encoding. -/
theorem legal_of_encode {i : Instr} {op : Byte} {rest : List Byte} (he : encode i = op :: rest)
    (h : illegal op = false) : illegal i.opcode = false := by
  rw [Instr.opcode, he]
  exact h

/-- A documented instruction's opcode is legal. -/
theorem legal_of_documented {i : Instr} (h : i.documented = true) : illegal i.opcode = false := by
  cases i <;> first | exact legal_of_encode rfl rfl | cases h

/-- An instruction that the policy executes has no trapped fetch in its sequence (R97, R321). -/
theorem not_opcodeTrap_of_executes {i : Instr} {p : Policy} (h : i.executes p = true) :
    ∀ u ∈ sequenceOf p i.opcode, u ≠ .opcodeTrap := by
  have hno : ∀ op : Byte, ∀ u ∈ emulatedSequence op, u ≠ .opcodeTrap := by decide
  have hseq : sequenceOf p i.opcode = emulatedSequence i.opcode := by
    simp only [Instr.executes, Bool.or_eq_true, decide_eq_true_eq] at h
    rcases h with h | rfl
    · exact sequenceOf_legal (legal_of_documented h)
    · exact sequenceOf_emulate _
  rw [hseq]
  exact hno _

/-- An instruction keeps a fault record that stands (R375; log 35). -/
theorem fault_exec {i : Instr} {s t : State} {f : FaultRecord} (hw : i.wellFormed = true)
    (hx : i.executes s.profile.policy = true) (hf : s.fault = some f) (ht : exec i s = .next t) : t.fault = some f := by
  rw [exec_eq i s hw] at ht
  obtain rfl := Host.Outcome.next.inj ht
  exact fault_runOps _ (not_opcodeTrap_of_executes hx) _ hf

/-! ### The accesses of the statement -/

section OutOfRange

variable {s : State} {a : Addr}

/-- LDA from an address that nothing answers loads its own last operand byte (R64). -/
theorem ldaAbs_openBus (h : s.openBus a) :
    ∃ t, exec (.ldaAbs a) s = .next t ∧ t.busLatch = hi a ∧ t.view = { s.view with a := hi a }.nz (hi a) ∧
      t.pc = s.pc + 3 ∧
      (s.fault = none → (∀ k, k < 3 → (target s (s.pc + BitVec.ofNat 16 k)).kind ≠ .outOfRange) →
        (target s a).kind = .outOfRange → t.fault = some ⟨.hardwareFault, 2, a, 0xAD, s.cycles + 4⟩) := by
  obtain ⟨w, hr, hat, hlatch, hir, hfault⟩ := abs_fetched 0xAD a [.read .lda] s
  obtain ⟨t, f, ht, hb, hview, hpc, htf⟩ := read_openBus .lda hat h
  rw [hlatch] at hb hview
  refine ⟨t, congrArg Host.Outcome.next (hr.trans ht), hb, hview, hpc, fun hf hin hk => ?_⟩
  rw [htf, faultAfter_of_outOfRange (hat.same.target a ▸ hk) ((hfault hin).trans hf), hir, hat.cycles]

/-- LDX from a zero-page address that nothing answers loads its operand byte (R64). -/
theorem ldxZp_openBus (h : s.openBus a) (ha : a.toNat < 256) :
    ∃ t, exec (.ldxZp (lo a)) s = .next t ∧ t.x = lo a := by
  have hz : zeroPage (lo a) = a := by
    apply BitVec.eq_of_toNat_eq
    rw [zeroPage, join_toNat, lo_toNat]
    have h0 : (0x00 : Byte).toNat = 0 := rfl
    omega
  obtain ⟨w, hr, hat, hlatch⟩ := zp_fetched 0xA6 (lo a) [.read .ldx] s
  obtain ⟨t, f, ht, _, hview, _⟩ := read_openBus .ldx hat (hz.symm ▸ h)
  exact ⟨t, congrArg Host.Outcome.next (hr.trans ht), (congrArg View.x hview).trans hlatch⟩

variable (hk : (target s a).kind = .outOfRange) (hf : s.fault = none)
  (hin : ∀ k, k < 3 → (target s (s.pc + BitVec.ofNat 16 k)).kind ≠ .outOfRange)
include hk hf hin

/-- STA at an out-of-range address changes nothing shown, and records the BusFault in its last cycle (R374, R375). -/
theorem staAbs_outOfRange :
    ∃ t, exec (.staAbs a) s = .next t ∧ t.view = s.view ∧ t.pc = s.pc + 3 ∧
      t.fault = some ⟨.hardwareFault, 2, a, 0x8D, s.cycles + 4⟩ := by
  obtain ⟨w, hr, hat, _, hir, hfault⟩ := abs_fetched 0x8D a [.write .sta] s
  have hkw : (target w a).kind = .outOfRange := hat.same.target a ▸ hk
  have hacc : (MicroOp.write .sta).access w = .write a (StoreOp.value .sta w) := by simp [MicroOp.access, hat.ad]
  obtain ⟨t, ht⟩ : ∃ t, t = cycle (.write .sta) [] none w := ⟨_, rfl⟩
  refine ⟨t, ?_, ?_, ?_, ?_⟩
  · rw [ht]
    exact congrArg Host.Outcome.next (hr.trans (by simp [runOps, MicroOp.skipped, MicroOp.supply, MicroOp.fetches]))
  · rw [← hat.same.view, ht]
    refine view_of ?_ (stored_congr (cycle_mem_of_notRam hacc (by simp [hkw]) _ _) (by simp))
    constructor <;>
      simp [cycle_a, cycle_x, cycle_y, cycle_sp, cycle_fN, cycle_fV, cycle_fD, cycle_fI, cycle_fZ, cycle_fC, MicroOp.act]
  · rw [ht]; simpa [cycle_pc, MicroOp.act] using hat.pc
  · rw [ht, cycle_fault_eq (by simp), hacc]
    show faultAfter a w = _
    rw [faultAfter_of_outOfRange hkw ((hfault hin).trans hf), hir, hat.cycles]

/-- INC at an out-of-range address changes no memory, and keeps the record that its read makes (R374, R375). -/
theorem incAbs_outOfRange :
    ∃ t, exec (.incAbs a) s = .next t ∧ t.view.cells = s.view.cells ∧ t.pc = s.pc + 3 ∧ t.cycles = s.cycles + 6 ∧
      t.fault = some ⟨.hardwareFault, 2, a, 0xEE, s.cycles + 4⟩ := by
  obtain ⟨w, hr, hat, _, hir, hfault⟩ := abs_fetched 0xEE a (rmwTail .inc) s
  have hkw : (target w a).kind = .outOfRange := hat.same.target a ▸ hk
  obtain ⟨w1, hw1⟩ : ∃ x, x = cycle .readDL [.writeBack, .modify .inc] none w := ⟨_, rfl⟩
  obtain ⟨w2, hw2⟩ : ∃ x, x = cycle .writeBack [.modify .inc] none w1 := ⟨_, rfl⟩
  obtain ⟨t, ht⟩ : ∃ x, x = cycle (.modify .inc) [] none w2 := ⟨_, rfl⟩
  have h1 : Same w w1 := hw1 ▸ quiet_same rfl _ _ _
  have a1 : w1.ad = a := by rw [hw1]; simp [cycle_ad, MicroOp.act, hat.ad]
  have a2 : w2.ad = a := by rw [hw2]; simp [cycle_ad, MicroOp.act, a1]
  have hk1 : (target w1 a).kind = .outOfRange := h1.target a ▸ hkw
  have hk2 : (target w2 a).kind = .outOfRange := by rw [hw2]; unfold target; rw [cycle_profile]; exact hk1
  have f1 : w1.fault = some ⟨.hardwareFault, 2, a, 0xEE, s.cycles + 4⟩ := by
    rw [hw1, cycle_fault_eq (by simp)]
    show faultAfter w.ad w = _
    rw [hat.ad, faultAfter_of_outOfRange hkw ((hfault hin).trans hf), hir, hat.cycles]
  have m2 : w2.mem = w1.mem := by
    rw [hw2]; exact cycle_mem_of_notRam (u := .writeBack) rfl (by rw [a1, hk1]; decide) _ _
  have mt : t.mem = w2.mem := by
    rw [ht]; exact cycle_mem_of_notRam (u := .modify .inc) rfl (by rw [a2, hk2]; decide) _ _
  refine ⟨t, congrArg Host.Outcome.next (hr.trans ?_), ?_, ?_, ?_, ?_⟩
  · rw [ht, hw2, hw1]
    simp [rmwTail, runOps, MicroOp.skipped, MicroOp.supply, MicroOp.fetches]
  · exact stored_congr (by rw [mt, m2, h1.mem, hat.same.mem]) (by simp [ht, hw2, h1.profile, hat.same.profile])
  · simp [ht, hw2, hw1, cycle_pc, MicroOp.act, rmwOp_mem, hat.pc]
  · simp [ht, hw2, hw1, hat.cycles]
  · rw [ht, hw2]
    exact fault_cycle (by simp) _ _ (fault_cycle (by simp) _ _ f1)

end OutOfRange

/-- Settles O19: the loads at an address that nothing answers, the three accesses out of range, and a record that stands. -/
theorem openBusReturnsTheLastByte : Obligations.OpenBusReturnsTheLastByte := by
  intro s a
  refine ⟨fun ho => ⟨?_, ldxZp_openBus ho⟩, fun hk hf hin => ⟨?_, ?_, ?_⟩, fun i t f hw hx hf ht => fault_exec hw hx hf ht⟩
  · obtain ⟨t, ht, hb, hview, _⟩ := ldaAbs_openBus ho
    exact ⟨t, ht, congrArg View.a hview, hb⟩
  · obtain ⟨t, ht, _, hview, hpc, hfault⟩ := ldaAbs_openBus (s := s) (a := a) (.inr (.inl hk))
    exact ⟨t, ht, hview, hpc, hfault hf hin hk, boundaryCheck_of_fault (hfault hf hin hk)⟩
  · obtain ⟨t, ht, hview, hpc, hfault⟩ := staAbs_outOfRange hk hf hin
    exact ⟨t, ht, hview, hpc, hfault, boundaryCheck_of_fault hfault⟩
  · obtain ⟨t, ht, hcells, hpc, hcyc, hfault⟩ := incAbs_outOfRange hk hf hin
    exact ⟨t, ht, hcells, hpc, hcyc, hfault, boundaryCheck_of_fault hfault⟩

end Sys2Proof.Machine
end

section
/-! What every step does to memory (20_memory.md R63, R75): a bus write is the only change, so every step keeps what every
bus write keeps. From this, and from the cells that the entries of a well-formed map reach: ROM never changes, and mirrors
share their cell (R65). -/

namespace Sys2Proof.Machine

/-! ### The bus write is the only change of memory -/

/-- Every bus write under the map keeps the property of memory. -/
def KeptByBusWrites (map : List Region) (Q : List Host.Cell → Prop) : Prop :=
  ∀ (a : Addr) (v : Byte) (m : List Host.Cell), Q m → Q (memAfterWrite (resolve map a) v m)

section Kept

variable {Q : List Host.Cell → Prop} {s t : State}

/-- What every bus write keeps, a sequence keeps. -/
theorem runOps_keeps_memory (hQ : KeptByBusWrites s.profile.map Q) (hs : Q s.mem) (ops : List MicroOp)
    (bytes : List Byte) : Q (runOps ops bytes s).mem := by
  refine (runOps_keeps (P := fun r => r.profile = s.profile ∧ Q r.mem) (fun u us v r hr => ?_) ops bytes s ⟨rfl, hs⟩).2
  obtain ⟨hp, hm⟩ := hr
  refine ⟨(cycle_profile ..).trans hp, ?_⟩
  rw [cycle_mem]
  split
  · exact hm
  · unfold target
    rw [hp]
    exact hQ _ _ _ hm

/-- What every bus write keeps, whatever a tick or a step command runs keeps. -/
theorem runSequence_keeps_memory (hQ : KeptByBusWrites s.profile.map Q) (hs : Q s.mem) (h : runSequence s = .next t) :
    Q t.mem := by
  rcases runSequence_cases h with ⟨_, rfl⟩ | ⟨_, _, rfl⟩ | ⟨_, _, rfl⟩ | ⟨_, _, op, bytes, rfl⟩
  · exact hs
  · exact runOps_keeps_memory hQ hs _ _
  · exact runOps_keeps_memory (s := { s with seq := .interrupt, t := 1, bflag := false }) hQ hs _ _
  · exact runOps_keeps_memory (s := startInstr s) hQ hs _ _

/-- What every bus write keeps, a tick keeps. -/
theorem tick_keeps_memory (hQ : KeptByBusWrites s.profile.map Q) (hs : Q s.mem) (h : tick s = .next t) : Q t.mem := by
  rcases tick_cases h with ⟨_, rfl⟩ | ⟨_, u, hu, rfl⟩
  · exact hs
  · rw [boundaryCheck_mem]
    exact runSequence_keeps_memory hQ hs hu

/-- What every bus write keeps, a command keeps: the debugger's write is the Bus's (R82). -/
theorem command_keeps_memory {c : Command} (hQ : KeptByBusWrites s.profile.map Q) (hs : Q s.mem)
    (h : command c s = .next t) : Q t.mem := by
  rcases command_cases h with rfl | ⟨_, hp⟩
  · exact hs
  cases c
  case stepInstruction => exact tick_keeps_memory (s := startRun .steppingInstruction s) hQ hs hp
  all_goals obtain rfl := Host.Outcome.next.inj hp
  case write => exact hQ _ _ s.mem hs
  case reset => exact runOps_keeps_memory (s := startReset s) hQ hs _ _
  all_goals exact hs

/-- What every bus write keeps, a step keeps. -/
theorem step_keeps_memory (hQ : KeptByBusWrites s.profile.map Q) (hs : Q s.mem) (h : step s = .next t) : Q t.mem := by
  rcases step_cases h with ⟨c, _, hc⟩ | ⟨_, ht⟩
  · exact command_keeps_memory (s := scriptTaken s) hQ hs hc
  · exact tick_keeps_memory (s := scriptTaken s) hQ hs ht

end Kept

/-! ### The entries of a well-formed map (R65, R376) -/

/-- What an address of an entry resolves to, by the entry (R65). -/
def Region.targetOf (r : Region) (a : Addr) : Target :=
  ⟨r.kind, r.first + (a.toNat - r.first) % r.period, (a.toNat - r.first) % r.period⟩

/-- An address lies in an entry between its first and its last. -/
theorem region_holds_iff {r : Region} {a : Addr} : Region.holds r a = true ↔ r.first ≤ a.toNat ∧ a.toNat ≤ r.last := by
  simp [Region.holds]

/-- An address that something drives resolves by an entry. -/
theorem resolve_eq_targetOf {map : List Region} {a : Addr} (h : (resolve map a).kind ≠ .undriven) :
    ∃ r ∈ map, resolve map a = Region.targetOf r a := by
  unfold resolve at h ⊢
  split at h
  · next r hr => exact ⟨r, List.mem_of_find?_eq_some hr, rfl⟩
  · exact absurd rfl h

/-- The entries of a well-formed map are well formed. -/
theorem region_wellFormed_of_map {map : List Region} (h : mapWellFormed map = true) :
    ∀ r ∈ map, Region.wellFormed r = true := by
  induction map with
  | nil => exact fun _ hr => nomatch hr
  | cons q qs ih =>
    simp only [mapWellFormed, Bool.and_eq_true] at h
    obtain ⟨⟨hq, _⟩, hqs⟩ := h
    exact List.forall_mem_cons.mpr ⟨hq, ih hqs⟩

/-- Two entries of a well-formed map do not overlap. -/
theorem regions_apart {map : List Region} (h : mapWellFormed map = true) {r q : Region} (hr : r ∈ map) (hq : q ∈ map)
    (hne : r ≠ q) : r.last < q.first ∨ q.last < r.first := by
  induction map with
  | nil => exact nomatch hr
  | cons p ps ih =>
    simp only [mapWellFormed, Bool.and_eq_true, List.all_eq_true] at h
    obtain ⟨⟨_, hp⟩, hps⟩ := h
    have apart : ∀ e ∈ ps, p.last < e.first ∨ e.last < p.first := fun e he => by
      have := hp e he
      simp only [Region.overlaps, Bool.not_eq_true', Bool.and_eq_false_iff, decide_eq_false_iff_not] at this
      omega
    rcases List.mem_cons.mp hr with hrp | hr <;> rcases List.mem_cons.mp hq with hqp | hq
    · exact absurd (hrp.trans hqp.symm) hne
    · exact hrp ▸ apart q hq
    · exact hqp ▸ (apart r hr).symm
    · exact ih hps hr hq

/-- In a well-formed map an address of an entry resolves by that entry. -/
theorem resolve_of_mem {map : List Region} (h : mapWellFormed map = true) {r : Region} {a : Addr} (hr : r ∈ map)
    (ha : Region.holds r a = true) : resolve map a = Region.targetOf r a := by
  unfold resolve
  split
  · next q hq =>
    have hqr : q = r := by
      by_contra hne
      have hqa := region_holds_iff.mp (List.find?_some (p := fun r => Region.holds r a) hq)
      have hra := region_holds_iff.mp ha
      have := regions_apart h (List.mem_of_find?_eq_some hq) hr hne
      omega
    rw [hqr]
    rfl
  · next hn => exact absurd ha (List.find?_eq_none.mp hn r hr)

/-- The cell of an address lies in its entry, so that entries that do not overlap share no cell. -/
theorem targetOf_cell_bounds {r : Region} (h : Region.wellFormed r = true) (a : Addr) :
    r.first ≤ (Region.targetOf r a).cell ∧ (Region.targetOf r a).cell ≤ r.last := by
  simp only [Region.wellFormed, Bool.and_eq_true, decide_eq_true_eq] at h
  obtain ⟨⟨hle, hpos⟩, hdvd⟩ := h
  have hmod := Nat.mod_lt (a.toNat - r.first) hpos
  have hperiod := Nat.le_of_dvd (by omega) (Nat.dvd_of_mod_eq_zero hdvd)
  simp only [Region.targetOf]
  omega

/-- Addresses of different kinds, each in an entry, share no cell. -/
theorem resolve_cell_ne {map : List Region} (h : mapWellFormed map = true) {a b : Addr}
    (ha : (resolve map a).kind ≠ .undriven) (hb : (resolve map b).kind ≠ .undriven)
    (hne : (resolve map a).kind ≠ (resolve map b).kind) : (resolve map a).cell ≠ (resolve map b).cell := by
  obtain ⟨r, hr, har⟩ := resolve_eq_targetOf ha
  obtain ⟨q, hq, hbq⟩ := resolve_eq_targetOf hb
  rw [har, hbq] at hne ⊢
  have hrq : r ≠ q := fun he => hne (by rw [he]; rfl)
  have hra := targetOf_cell_bounds (region_wellFormed_of_map h r hr) a
  have hqb := targetOf_cell_bounds (region_wellFormed_of_map h q hq) b
  have := regions_apart h hr hq hrq
  omega

/-- An address's target depends on the profile alone. -/
theorem target_congr {s w : State} (hp : w.profile = s.profile) (a : Addr) : target w a = target s a := by
  unfold target
  rw [hp]

/-! ### ROM -/

/-- A bus write leaves the byte of a ROM cell (R63). -/
theorem romByte_keptByBusWrites {map : List Region} (h : mapWellFormed map = true) {a : Addr}
    (ha : (resolve map a).kind = .rom) (b : Byte) :
    KeptByBusWrites map (fun m => Memory.read m (resolve map a).cell = b) := by
  intro w v m hm
  by_cases hw : (resolve map w).kind = .ram
  · have hne := resolve_cell_ne h (a := a) (b := w) (by simp [ha]) (by simp [hw]) (by simp [ha, hw])
    exact (read_memAfterWrite_other _ v m hne).trans hm
  · simpa only [memAfterWrite_notRam _ v m hw] using hm

/-- An address of a RAM or ROM cell shows the byte of the cell. -/
theorem stored_of_cell {s : State} {a : Addr} (h : (target s a).kind = .ram ∨ (target s a).kind = .rom) :
    s.stored a = some (Memory.read s.mem (target s a).cell) := by
  unfold State.stored
  rcases h with h | h <;> rw [h]

/-- Settles O17: every bus write keeps the byte of a ROM cell, so every step does. -/
theorem romNeverChanges : Obligations.RomNeverChanges := by
  intro s t a hmap hk hstep
  have htar : target t a = target s a := target_congr (noStepChangesTheProfile s t hstep) a
  have hread := step_keeps_memory (romByte_keptByBusWrites hmap hk _) rfl hstep
  rw [stored_of_cell (.inr hk), stored_of_cell (.inr (htar ▸ hk)), htar]
  exact congrArg some hread

/-! ### Mirrors -/

/-- An address a whole number of periods above another, in one entry, resolves as the other does (R65). -/
theorem targetOf_mirror {r : Region} {a b : Addr} {k : Nat} (ha : r.first ≤ a.toNat)
    (hb : b.toNat = a.toNat + k * r.period) : Region.targetOf r b = Region.targetOf r a := by
  have hsub : b.toNat - r.first = a.toNat - r.first + k * r.period := by omega
  simp only [Region.targetOf, hsub, Nat.add_mul_mod_self_right]

/-- Addresses of one target show the same byte. -/
theorem stored_of_target_eq {s : State} {a b : Addr} (h : target s b = target s a) : s.stored b = s.stored a := by
  unfold State.stored
  rw [h]

/-- The effective address of an absolute operand is the operand (R93). -/
theorem effective_of_abs {i : Instr} {op : Byte} {a : Addr} (hop : i.opcode = op) (hmode : (opInfo op).mode = .abs)
    (hlo : i.operandLo = lo a) (hhi : i.operandHi = hi a) (s : State) : effective i s = some a := by
  have hm : i.mode = .abs := by rw [Instr.mode, hop, hmode]
  simp only [effective, hm, hlo, hhi, join_hi_lo]

/-- STA absolute stores A at its operand, and changes no other byte (R173). -/
theorem staAbs_stored {s t : State} {a : Addr} (hm : Memory.wf s.mem = true) (h : exec (.staAbs a) s = .next t) :
    t.stored = s.afterStore a s.a s.stored := by
  obtain ⟨_, t', ht', _, hw, _, hview⟩ :=
    write_row (s := s) (i := .staAbs a) rowsSta_run rowsSta_right ⟨rfl, (0x8D, .abs, 4), by decide, rfl⟩
      (.inl rowsSta_legal) hm
  obtain rfl := Host.Outcome.next.inj (h.symm.trans ht')
  have hea : effective (.staAbs a) s = some a := effective_of_abs (op := 0x8D) rfl (by decide) rfl rfl s
  rw [← (hw a hea).1]
  exact congrArg View.cells hview

/-- LDA absolute loads the byte stored at its operand (R170). -/
theorem ldaAbs_loads {t u : State} {b : Addr} {v : Byte} (hv : t.stored b = some v) (h : exec (.ldaAbs b) t = .next u) :
    u.a = v := by
  obtain ⟨_, u', f, hu', _, hr, hview⟩ :=
    read_row (s := t) (i := .ldaAbs b) rowsLda_run rowsLda_right ⟨rfl, (0xAD, .abs, 4), by decide, rfl⟩
      (.inl rowsLda_legal)
  obtain rfl := Host.Outcome.next.inj (h.symm.trans hu')
  have hea : effective (.ldaAbs b) t = some b := effective_of_abs (op := 0xAD) rfl (by decide) rfl rfl t
  obtain ⟨_, hread, _⟩ := hr.2 b hea
  exact (congrArg View.a hview).trans (hread v hv)

/-- A store to a RAM cell is shown at every address of the cell. -/
theorem afterStore_ram {s : State} {a b : Addr} (v : Byte) (hk : (target s a).kind = .ram)
    (hb : target s b = target s a) : s.afterStore a v s.stored b = some v := by
  unfold State.afterStore
  rw [if_pos ⟨hk, by rw [hb]⟩, stored_of_cell (.inl (hb ▸ hk))]
  rfl

/-- Settles O18: both addresses resolve by the one entry that holds them, to one cell. -/
theorem mirrorsShareTheirCell : Obligations.MirrorsShareTheirCell := by
  intro s r a k hmap hm hr hfirst hlast h64
  obtain ⟨b, hb⟩ : ∃ b, b = a + BitVec.ofNat 16 (k * r.period) := ⟨_, rfl⟩
  rw [← hb]
  have hbn : b.toNat = a.toNat + k * r.period := by
    rw [hb, BitVec.toNat_add, BitVec.toNat_ofNat]
    omega
  have hta : target s a = Region.targetOf r a := resolve_of_mem hmap hr (region_holds_iff.mpr ⟨hfirst, by omega⟩)
  have htb : target s b = Region.targetOf r b := resolve_of_mem hmap hr (region_holds_iff.mpr ⟨by omega, by omega⟩)
  have htar : target s b = target s a := by rw [htb, hta, targetOf_mirror hfirst hbn]
  refine ⟨htar, stored_of_target_eq htar, fun hk t u ht hu => ldaAbs_loads ?_ hu⟩
  rw [staAbs_stored hm ht]
  exact afterStore_ram s.a (by rw [hta]; exact hk) htar

end Sys2Proof.Machine
end

section
/-! Which instructions store (20_memory.md R75, 30_encoding.md R96): those whose sequence has a write cycle. -/

namespace Sys2Proof.Machine

/-- The access of the micro-operation is a bus write. -/
def MicroOp.stores : MicroOp → Bool
  | .writeBack | .modify _ | .write _ | .writeUnstable _ | .pushA | .pushPB | .pushP | .pushHi | .pushLo
  | .pushLoVec => true
  | _ => false

/-- A micro-operation that does not store reads. -/
theorem access_of_not_stores {u : MicroOp} (h : u.stores = false) (s : State) : ∃ a, u.access s = .read a := by
  cases u
  case writeBack | modify | write | writeUnstable | pushA | pushPB | pushP | pushHi | pushLo | pushLoVec => cases h
  all_goals exact ⟨_, rfl⟩

/-- A sequence of which no cycle stores leaves memory. -/
theorem runOps_mem_of_not_stores {ops : List MicroOp} (h : ∀ u ∈ ops, u.stores = false) (bytes : List Byte)
    (s : State) : (runOps ops bytes s).mem = s.mem := by
  induction ops generalizing bytes s with
  | nil => rfl
  | cons u us ih =>
    have hus : ∀ w ∈ us, w.stores = false := fun w hw => h w (List.mem_cons_of_mem u hw)
    obtain ⟨a, ha⟩ := access_of_not_stores (h u List.mem_cons_self) s
    unfold runOps
    split
    · exact ih hus _ _
    · rw [ih hus, cycle_mem, ha]

/-- The opcodes of the classes and mnemonics that R75 and R96 leave out of the stores have no storing cycle. -/
theorem not_stores_of_opcode (op : Byte)
    (h : accessClass (opInfo op).mnemonic (opInfo op).mode ∈ ([.read, .implied, .branch, .halt] : List AccessClass) ∨
      (opInfo op).mnemonic ∈ ([.pla, .plp, .jmp, .rts, .rti] : List Mnemonic)) :
    ∀ u ∈ emulatedSequence op, u.stores = false := by
  revert op
  decide

/-- Settles O55: the sequence of such an opcode, trapped or not, has no storing cycle. -/
theorem onlyStoringInstructionsChangeMemory : Obligations.OnlyStoringInstructionsChangeMemory := by
  intro i s t hw ht hc
  rw [exec_eq i s hw] at ht
  obtain rfl := Host.Outcome.next.inj ht
  have hops : ∀ u ∈ sequenceOf s.profile.policy i.opcode, u.stores = false :=
    sequenceOf_all (Q := fun u => u.stores = false) rfl (not_stores_of_opcode i.opcode hc) _
  exact runOps_mem_of_not_stores hops (encode i) (startInstr s)

end Sys2Proof.Machine
end

section
/-! What the reads at PC deliver (20_memory.md R64, R69, R80): each byte by the state in which it is read, which for the
third byte of a JSR is the one after its pushes (44_control.md R271). -/

namespace Sys2Proof.Machine

/-- Where a read answers `bus_latch` depends on the map alone. -/
theorem openBus_congr {s w : State} (hp : w.profile = s.profile) {a : Addr} (h : s.openBus a) : w.openBus a := by
  unfold State.openBus
  rw [target_congr hp]
  exact h

/-- The bytes shown after JSR's pushes of a return address (R271). -/
theorem afterJsrPushes_stored {s : State} (hm : Memory.wf s.mem = true) (pc : Addr) :
    (afterJsrPushes pc s).stored = s.afterPush (s.sp - 1) (lo pc) (s.afterPush s.sp (hi pc) s.stored) := by
  have h1 : (busWrite (stackAddr s.sp) (hi pc) (readThrough (stackAddr s.sp) s)).stored =
      s.afterPush s.sp (hi pc) s.stored := stored_memAfterWrite (s := s) hm rfl rfl
  rw [← h1]
  exact stored_memAfterWrite (s := s) (memAfterWrite_wf _ _ hm) rfl rfl

/-- The state in which the third byte is read, after an opcode and a second byte. -/
def beforeThirdByte (op : Byte) (s : State) : State :=
  if op = 0x20 then afterJsrPushes (s.pc + 2) (readThrough (s.pc + 1) (readThrough s.pc s))
  else readThrough (s.pc + 1) (readThrough s.pc s)

/-- The three bytes of a fetch. -/
theorem fetchBytes_eq (s : State) :
    fetchBytes s = [busValue s.pc s, busValue (s.pc + 1) (readThrough s.pc s),
      busValue (s.pc + 2) (beforeThirdByte (busValue s.pc s) s)] := rfl

/-- The reads and pushes before the third byte leave the map. -/
theorem beforeThirdByte_profile (op : Byte) (s : State) : (beforeThirdByte op s).profile = s.profile := by
  unfold beforeThirdByte
  split <;> simp [afterJsrPushes, readThrough]

/-- But for a JSR, the third byte is read from memory as it stood. -/
theorem beforeThirdByte_stored {op : Byte} (h : op ≠ 0x20) (s : State) : (beforeThirdByte op s).stored = s.stored := by
  rw [beforeThirdByte, if_neg h]
  rfl

/-- The third byte of a JSR is read after its pushes (R271). -/
theorem beforeThirdByte_stored_jsr {s : State} (hm : Memory.wf s.mem = true) :
    (beforeThirdByte 0x20 s).stored =
      s.afterPush (s.sp - 1) (lo (s.pc + 2)) (s.afterPush s.sp (hi (s.pc + 2)) s.stored) :=
  afterJsrPushes_stored (s := readThrough (s.pc + 1) (readThrough s.pc s)) hm (s.pc + 2)

/-- The last byte transferred before the third is the second, or the byte that a JSR pushed last. -/
theorem beforeThirdByte_busLatch (op : Byte) (s : State) :
    (beforeThirdByte op s).busLatch =
      if op = 0x20 then lo (s.pc + 2) else busValue (s.pc + 1) (readThrough s.pc s) := by
  unfold beforeThirdByte
  split <;> rfl

/-- Settles O7: each read delivers the byte stored in the state before it, or that state's `bus_latch`. -/
theorem fetchDeliversTheBytesAtPc : Obligations.FetchDeliversTheBytesAtPc := by
  intro s hm
  refine ⟨_, _, _, fetchBytes_eq s, fun v hv => busValue_of_stored hv, fun v hv => ?_, fun hop v hv => ?_,
    fun hop v hv => ?_, busValue_of_openBus, fun ho => ?_, fun ho => ?_⟩
  · exact busValue_of_stored (s := readThrough s.pc s) hv
  · exact busValue_of_stored (by rw [beforeThirdByte_stored hop]; exact hv)
  · exact busValue_of_stored (by rw [hop, beforeThirdByte_stored_jsr hm]; exact hv)
  · exact busValue_of_openBus (s := readThrough s.pc s) ho
  · rw [busValue_of_openBus (openBus_congr (beforeThirdByte_profile _ s) ho), beforeThirdByte_busLatch]

end Sys2Proof.Machine
end

section
/-! The debugger's overrides and breakpoint commands (20_memory.md R82, 60_exceptions.md R409 to R411). -/

namespace Sys2Proof.Machine

/-- A step in which the host issues a command that is accepted performs it. -/
theorem step_perform {c : Command} {s : State} (hc : nextCommand s = some c) (hm : misuse c (scriptTaken s) = none) :
    step s = perform c (scriptTaken s) := by
  rw [step_command hc]
  simp only [command, hm]

/-- The debugger's write shows what a bus write shows (R82). -/
theorem debugWrite_stored {s : State} (hm : Memory.wf s.mem = true) (a : Addr) (v : Byte) :
    (debugWrite a v s).stored = s.afterStore a v s.stored :=
  stored_memAfterWrite (s := s) hm rfl rfl

/-- No sequence gives an id. -/
theorem runSequence_nextBreakpointId {s t : State} (h : runSequence s = .next t) :
    t.nextBreakpointId = s.nextBreakpointId := by
  rcases runSequence_cases h with ⟨_, rfl⟩ | ⟨_, _, rfl⟩ | ⟨_, _, rfl⟩ | ⟨_, _, op, bytes, rfl⟩
  · rfl
  · exact runOps_nextBreakpointId ..
  · exact runOps_nextBreakpointId ..
  · exact runOps_nextBreakpointId ..

/-- No tick gives an id. -/
theorem tick_nextBreakpointId {s t : State} (h : tick s = .next t) : t.nextBreakpointId = s.nextBreakpointId := by
  rcases tick_cases h with ⟨_, rfl⟩ | ⟨_, u, hu, rfl⟩
  · rfl
  · exact (boundaryCheck_nextBreakpointId u).trans (runSequence_nextBreakpointId hu)

/-- A command never lowers the next fresh id (R411). -/
theorem command_nextBreakpointId_le {c : Command} {s t : State} (h : command c s = .next t) :
    s.nextBreakpointId ≤ t.nextBreakpointId := by
  rcases command_cases h with rfl | ⟨_, hp⟩
  · exact Nat.le_refl _
  cases c
  case stepInstruction => exact (tick_nextBreakpointId hp).ge
  all_goals obtain rfl := Host.Outcome.next.inj hp
  case addBreakpoint => exact Nat.le_succ _
  case reset => exact (runOps_nextBreakpointId resetOps [] (startReset s)).ge
  all_goals exact Nat.le_refl _

/-- A step never lowers the next fresh id (R411). -/
theorem step_nextBreakpointId_le {s t : State} (h : step s = .next t) : s.nextBreakpointId ≤ t.nextBreakpointId := by
  rcases step_cases h with ⟨c, _, hc⟩ | ⟨_, ht⟩
  · exact command_nextBreakpointId_le (s := scriptTaken s) hc
  · exact (tick_nextBreakpointId (s := scriptTaken s) ht).ge

/-- A removal of an id of the set is accepted (R377). -/
theorem misuse_removeBreakpoint {s : State} {id : Nat} (h : ∃ b ∈ s.breakpoints, b.id = id) :
    misuse (.removeBreakpoint id) s = none := by
  obtain ⟨b, hb, he⟩ := h
  exact if_pos (List.any_eq_true.mpr ⟨b, hb, decide_eq_true he⟩)

/-- Settles O59: each command is accepted, and performs one record update of the state. -/
theorem overridesAndBreakpointCommands : Obligations.OverridesAndBreakpointCommands := by
  intro s hinv
  refine ⟨fun r hp hc => ?_, fun a v hp hc => ?_, fun a condition hc => ?_, fun t => step_nextBreakpointId_le,
    fun id hc hid => ?_⟩
  · exact ⟨_, step_perform hc (if_pos hp), rfl, rfl, rfl⟩
  · refine ⟨_, step_perform hc (if_pos hp), ?_, rfl⟩
    exact congrArg (fun cells => { s.view with cells := cells }) (debugWrite_stored (s := scriptTaken s) hinv.mem_wf a v)
  · refine ⟨s.nextBreakpointId, rfl, fun b hb => ?_, Nat.le_refl _, _, step_perform hc rfl, Nat.lt_succ_self _, rfl⟩
    exact (hinv.breakpoints_good.fresh b hb).ne
  · refine ⟨_, step_perform hc (misuse_removeBreakpoint (s := scriptTaken s) hid), fun b => ?_, List.filter_sublist, rfl⟩
    simp [removeBreakpoint, scriptTaken]

end Sys2Proof.Machine
end

section
/-! The encoder and the decoder (30_encoding.md R90 to R98): what an opcode builds is well formed and encodes to the bytes
read, and what an instruction encodes to is read back as that instruction. -/

namespace Sys2Proof

/-! ### Opcodes and lengths -/

/-- A property of every number below 256 is one of every byte. -/
theorem forall_byte {P : Byte → Prop} (h : ∀ n < 256, P (BitVec.ofNat 8 n)) (v : Byte) : P v := by
  simpa using h v.toNat v.isLt

/-- An instruction has one, two or three bytes (R90). -/
theorem opLength_cases (op : Byte) : opLength op = 1 ∨ opLength op = 2 ∨ opLength op = 3 := by
  unfold opLength
  split
  · exact .inr (.inl rfl)
  · cases (opInfo op).mode <;> decide

theorem mnemonic_ne_brk {op : Byte} (h : op ≠ 0x00) : (opInfo op).mnemonic ≠ .brk := by
  revert op; decide

/-- But for BRK, the length is that of the mode (R91). -/
theorem opLength_of_ne_brk {op : Byte} (h : op ≠ 0x00) : opLength op = (opInfo op).mode.length := by
  unfold opLength
  split
  · next hm => exact absurd hm (mnemonic_ne_brk h)
  · rfl

/-! ### What an opcode builds -/

theorem build_wellFormed (op l h : Byte) : (build op l h).wellFormed = true := by
  induction op using forall_byte with
  | h n hn => interval_cases n <;> rfl

/-- The encoding of what an opcode builds, with an address operand still as the halves of its join. -/
theorem encode_build_halves (op l h : Byte) :
    encode (build op l h) = [op, if opLength op = 3 then lo (join h l) else l, hi (join h l)].take (opLength op) := by
  induction op using forall_byte with
  | h n hn => interval_cases n <;> rfl

/-- What an opcode builds encodes to as many of the bytes it was built from as its length says (R90, R91). -/
theorem encode_build (op l h : Byte) : encode (build op l h) = [op, l, h].take (opLength op) := by
  rw [encode_build_halves, lo_join, hi_join, ite_self]

theorem opcode_build (op l h : Byte) : (build op l h).opcode = op := by
  unfold Instr.opcode
  rw [encode_build]
  rcases opLength_cases op with hn | hn | hn <;> rw [hn] <;> rfl

theorem length_encode_build (op l h : Byte) : (encode (build op l h)).length = opLength op := by
  rw [encode_build]
  rcases opLength_cases op with hn | hn | hn <;> rw [hn] <;> rfl

/-! ### What the decoder answers -/

/-- A decoded instruction is built from the bytes that were taken. -/
theorem decode_cases {bytes rest : List Byte} {i : Instr} (hd : decode bytes = .ok (i, rest)) :
    ∃ op l h, i = build op l h ∧ bytes = [op, l, h].take (opLength op) ++ rest := by
  unfold decode at hd
  split at hd
  · cases hd
  · next op tail =>
    split at hd
    · next hn => cases hd; exact ⟨op, 0, 0, rfl, by rw [hn]; rfl⟩
    · next l tail hn => cases hd; exact ⟨op, l, 0, rfl, by rw [hn]; rfl⟩
    · next l h tail hn => cases hd; exact ⟨op, l, h, rfl, by rw [hn]; rfl⟩
    · cases hd

/-- Three bytes are enough for any instruction, and the first of them is its opcode (R94). -/
theorem decode_three_bytes (op l h : Byte) (rest : List Byte) :
    ∃ l' h' after, decode (op :: l :: h :: rest) = .ok (build op l' h', after) := by
  rcases opLength_cases op with hn | hn | hn
  · exact ⟨0, 0, l :: h :: rest, by simp only [decode, hn]⟩
  · exact ⟨l, 0, h :: rest, by simp only [decode, hn]⟩
  · exact ⟨l, h, rest, by simp only [decode, hn]⟩

/-- An instruction decoded with the join of an address's halves is the one of that address. -/
theorem decode_of_address {bytes rest : List Byte} {a : Addr} {i : Addr → Instr}
    (h : decode bytes = .ok (i (join (hi a) (lo a)), rest)) : decode bytes = .ok (i a, rest) := by
  rwa [join_hi_lo] at h

/-! ### The statements -/

/-- Settles O2, by cases on the instruction: a constructor that carries its opcode carries one of its list, an address operand
is put together from its halves, and the other words are read back as they stand. -/
theorem decodeInvertsEncode : Obligations.DecodeInvertsEncode := by
  intro i rest hw
  cases i
  case jam | nopZp | ancImm | nopZpx | nopImp | nopImm =>
    have h := of_decide_eq_true hw
    fin_cases h <;> rfl
  case nopAbx =>
    have h := of_decide_eq_true hw
    fin_cases h <;> exact decode_of_address rfl
  all_goals first
    | exact decode_of_address rfl
    | exact rfl

/-- Settles O3: what is decoded is built from an opcode and its operand bytes, and so encodes back. -/
theorem encodeInvertsDecode : Obligations.EncodeInvertsDecode := by
  refine ⟨fun op l h rest => ?_, fun bytes i rest hd => ?_⟩
  · obtain ⟨l', h', after, hd⟩ := decode_three_bytes op l h rest
    exact ⟨build op l' h', after, hd, opcode_build op l' h', length_encode_build op l' h'⟩
  · obtain ⟨op, l, h, rfl, rfl⟩ := decode_cases hd
    exact ⟨build_wellFormed op l h, by rw [encode_build]⟩

/-- Settles O1, by evaluating the decoder on each word. -/
theorem wordsFromTheOpcodeMatrixDecode : Obligations.WordsFromTheOpcodeMatrixDecode := by
  unfold Obligations.WordsFromTheOpcodeMatrixDecode
  and_intros <;> rfl

/-- Settles O4: the two directions of the illegal set are read off the opcode matrix, and BRK is the one opcode whose length is
not its mode's. -/
theorem illegalSetAndLengthsOfTheTable : Obligations.IllegalSetAndLengthsOfTheTable := by
  refine ⟨fun op => ⟨?_, fun h => ?_⟩, fun _ => rfl, fun op => ?_⟩
  · revert op; decide
  · fin_cases h <;> rfl
  · by_cases h : op = 0x00
    · subst h; rfl
    · rw [opLength_of_ne_brk h]
      cases (opInfo op).mode
      case imp => exact (if_neg h).symm
      all_goals rfl

end Sys2Proof
end

section
/-! The Disassembler (30_encoding.md R99 to R104): its operand text is read back as the operand's mode and bytes, its mnemonic
with that mode names one documented opcode, and the bytes of an instruction are all it reads. -/

namespace Sys2Proof

/-! ### The mode an operand is written in -/

/-- The mode that the operand text is written in: BRK's signature byte is written as an immediate (R102). -/
def OpInfo.textMode (info : OpInfo) : Mode :=
  match info.mnemonic with
  | .brk => .imm
  | _ => info.mode

theorem textMode_of_ne_brk {op : Byte} (h : op ≠ 0x00) : (opInfo op).textMode = (opInfo op).mode := by
  unfold OpInfo.textMode
  split
  · next hm => exact absurd hm (mnemonic_ne_brk h)
  · rfl

/-- The mode that an operand text shows: a branch's target is written as an absolute operand (R102). -/
def Mode.shape : Mode → Mode
  | .rel => .abs
  | m => m

@[simp] theorem lo_sext (v : Byte) : lo (sext v) = v := by
  unfold lo sext; grind

namespace Machine

/-! ### Reading the digits back -/

theorem digitValue_hexDigit : ∀ n < 16, digitValue (hexDigit n) = some n := by decide

theorem hexDigit_ne_comma (n : Nat) : hexDigit n ≠ ',' := by
  unfold hexDigit; split <;> decide

theorem hexDigit_ne_paren (n : Nat) : hexDigit n ≠ ')' := by
  unfold hexDigit; split <;> decide

theorem parse2_hexDigits (v : Byte) : parse2 (hexDigit (v.toNat / 16)) (hexDigit (v.toNat % 16)) = some v := by
  have hv := v.isLt
  unfold parse2
  rw [digitValue_hexDigit _ (by omega), digitValue_hexDigit _ (by omega)]
  simp [Nat.div_add_mod]

/-- The low and high byte that the operand's digits write: of a branch, those of its target (R102). -/
def operandValue (mode : Mode) (a : Addr) (l h : Byte) : Byte × Byte :=
  match mode with
  | .imp | .acc => (0, 0)
  | .imm | .zp | .zpx | .zpy | .izx | .izy => (l, 0)
  | .rel => (lo (a + 2 + sext l), hi (a + 2 + sext l))
  | .abs | .abx | .aby | .ind => (l, h)

theorem parseDigits_operandDigits (mode : Mode) (a : Addr) (l h : Byte) :
    parseDigits (operandDigits mode a l h) = some (operandValue mode a l h) := by
  cases mode <;> simp [operandDigits, operandValue, hex4, hex2, parseDigits, parse2_hexDigits]

/-! ### Reading the operand text back -/

/-- The forms of R99 tell the modes apart: two texts of one length differ where one has punctuation and the other a digit or
other punctuation. -/
theorem find_shape_operandText (mode : Mode) (a : Addr) (l h : Byte) :
    shapes.find? (fun m => (modeForm m).fits (operandText mode a l h)) = some mode.shape := by
  cases mode <;>
    simp [shapes, operandText, operandDigits, modeForm, OperandForm.fits, hex4, hex2, Mode.shape, hexDigit_ne_comma,
      hexDigit_ne_paren]

/-- The digits stand where the form of the shape has them. -/
theorem digits_operandText (mode : Mode) (a : Addr) (l h : Byte) :
    ((operandText mode a l h).drop (modeForm mode.shape).before.length).take (modeForm mode.shape).digits =
      operandDigits mode a l h := by
  cases mode <;> rfl

theorem parseOperand_operandText (mode : Mode) (a : Addr) (l h : Byte) :
    parseOperand (operandText mode a l h) = some (mode.shape, operandValue mode a l h) := by
  rw [parseOperand, find_shape_operandText, Option.bind_some, digits_operandText, parseDigits_operandDigits]
  rfl

/-! ### Finding the opcode -/

/-- No documented opcode is written as another one is: its mnemonic and the shape of its operand name it alone. -/
theorem find_writtenAs : ∀ op : Byte, illegal op = false →
    (List.range 256).find? (writtenAs (mnemonicText (opInfo op).mnemonic) (opInfo op).textMode.shape) =
      some op.toNat := by
  decide

theorem mnemonicText_ne_placeholder (m : Mnemonic) : mnemonicText m ≠ placeholder := by
  cases m <;> decide

theorem writtenAs_placeholder (shape : Mode) (op : Nat) : writtenAs placeholder shape op = false := by
  simp [writtenAs, mnemonicText_ne_placeholder]

/-! ### Re-encoding -/

/-- The operand bytes come back from the digits; a branch's offset is its target's distance from the next instruction. -/
theorem rebuild_operandValue (op : Byte) (a : Addr) (l h : Byte) :
    rebuild op a (operandValue (opInfo op).textMode a l h).1 (operandValue (opInfo op).textMode a l h).2 =
      [op, l, h].take (opLength op) := by
  by_cases hop : op = 0x00
  · subst hop; rfl
  · rw [textMode_of_ne_brk hop, rebuild, opLength_of_ne_brk hop]
    cases (opInfo op).mode
    case rel => simp [operandValue, Mode.length]
    all_goals rfl

/-- The text of a documented opcode re-encodes to its bytes (R103). -/
theorem reencode_operandText {op : Byte} (hop : illegal op = false) (a : Addr) (l h : Byte) :
    reencode (mnemonicText (opInfo op).mnemonic) (operandText (opInfo op).textMode a l h) a =
      some ([op, l, h].take (opLength op)) := by
  simp [reencode, parseOperand_operandText, find_writtenAs op hop, rebuild_operandValue]

/-- The placeholder has no encoding (R103). -/
theorem reencode_placeholder (operand : List Char) (a : Addr) : reencode placeholder operand a = none := by
  have hf : ∀ shape, (List.range 256).find? (writtenAs placeholder shape) = none := fun shape =>
    List.find?_eq_none.mpr fun op _ => by simp [writtenAs_placeholder]
  simp [reencode, hf]

/-! ### What the Disassembler answers -/

/-- The operand byte at offset `k` of the instruction at `a`; 0 where its length does not reach (R91). -/
def operandByte (read : Addr → Byte) (a : Addr) (k : Nat) : Byte :=
  if k < opLength (read a) then read (a + BitVec.ofNat 16 k) else 0

theorem take_operandBytes (read : Addr → Byte) (a : Addr) :
    [read a, operandByte read a 1, operandByte read a 2].take (opLength (read a)) =
      (List.range (opLength (read a))).map fun k => read (a + BitVec.ofNat 16 k) := by
  unfold operandByte
  rcases opLength_cases (read a) with h | h | h <;> simp [h, List.range_succ]

theorem operandByte_congr {read other : Addr → Byte} {a : Addr} (h0 : other a = read a)
    (h : ∀ k, k < opLength (read a) → other (a + BitVec.ofNat 16 k) = read (a + BitVec.ofNat 16 k)) (k : Nat) :
    operandByte other a k = operandByte read a k := by
  unfold operandByte
  rw [h0]
  exact ite_congr rfl (h k) fun _ => rfl

/-- An illegal opcode is the placeholder, with the length the CPU uses (R102, R346). -/
theorem disassemble_of_illegal {read : Addr → Byte} {a : Addr} (h : illegal (read a) = true) :
    disassemble read a = ⟨a, opLength (read a), placeholder, [], (opInfo (read a)).mode⟩ := if_pos h

/-- A documented opcode is its mnemonic and the text of its operand bytes (R101, R102). -/
theorem disassemble_of_documented {read : Addr → Byte} {a : Addr} (h : illegal (read a) = false) :
    disassemble read a = ⟨a, opLength (read a), mnemonicText (opInfo (read a)).mnemonic,
      operandText (opInfo (read a)).textMode a (operandByte read a 1) (operandByte read a 2),
      (opInfo (read a)).mode⟩ := by
  unfold disassemble
  rw [if_neg (by simp [h])]
  by_cases hop : read a = 0x00
  · have hl : opLength 0x00 = 2 := rfl
    rw [operandByte, operandByte, hop, hl]
    rfl
  · rw [textMode_of_ne_brk hop]
    split
    · next hm => exact absurd hm (mnemonic_ne_brk hop)
    · rfl

/-- The Disassembler reads the bytes of the instruction alone (R101). -/
theorem disassemble_congr {read other : Addr → Byte} {a : Addr}
    (h : ∀ k, k < opLength (read a) → other (a + BitVec.ofNat 16 k) = read (a + BitVec.ofNat 16 k)) :
    disassemble other a = disassemble read a := by
  have h0 : other a = read a := by
    simpa using h 0 (by rcases opLength_cases (read a) with hn | hn | hn <;> omega)
  cases hi : illegal (read a)
  · rw [disassemble_of_documented hi, disassemble_of_documented (h0 ▸ hi), operandByte_congr h0 h,
      operandByte_congr h0 h, h0]
  · rw [disassemble_of_illegal hi, disassemble_of_illegal (h0 ▸ hi), h0]

theorem disassemble_length_address (read : Addr → Byte) (a : Addr) :
    (disassemble read a).length = opLength (read a) ∧ (disassemble read a).address = a := by
  cases h : illegal (read a)
  · rw [disassemble_of_documented h]
    exact ⟨rfl, rfl⟩
  · rw [disassemble_of_illegal h]
    exact ⟨rfl, rfl⟩

/-- Settles O5: the mode and the opcode are recovered from the text, and with them the bytes. -/
theorem disassemblyRoundTrips : Obligations.DisassemblyRoundTrips := by
  intro read a
  obtain ⟨hlength, haddress⟩ := disassemble_length_address read a
  refine ⟨fun h => ?_, fun h => ?_, hlength, haddress, fun other => disassemble_congr⟩
  · rw [disassemble_of_documented h, reencode_operandText h, take_operandBytes]
  · rw [disassemble_of_illegal h]
    exact ⟨rfl, rfl, reencode_placeholder [] a⟩

end Machine
end Sys2Proof
end

section
/-! The fetches of a sequence (40_sequencer.md R121 to R153; log 12): the bytes that its fetch cycles find on the Bus are
those that the reads at PC deliver, so that exec, which is handed these bytes, runs as the sequence does that reads them
from the Bus. -/

namespace Sys2Proof.Machine

/-! ### The bytes a sequence fetches from the Bus -/

/-- The bytes that the fetch cycles of a sequence find on the Bus, first to last. -/
def busBytes : List MicroOp → State → List Byte
  | [], _ => []
  | u :: us, s =>
    if u.skipped s then busBytes us s
    else if u.fetches then busValue s.pc s :: busBytes us (cycle u us none s)
    else busBytes us (cycle u us none s)

@[simp] theorem supply_nil (u : MicroOp) : u.supply [] = none := by
  unfold MicroOp.supply
  split <;> rfl

@[simp] theorem rest_nil (u : MicroOp) : u.rest [] = [] := by
  unfold MicroOp.rest
  split <;> rfl

/-- A cycle that fetches reads at PC (R25). -/
theorem access_of_fetches {u : MicroOp} (h : u.fetches = true) (s : State) : u.access s = .read s.pc := by
  cases u <;> first | rfl | cases h

/-- A cycle that fetches is made. -/
theorem skipped_of_fetches {u : MicroOp} (h : u.fetches = true) (s : State) : u.skipped s = false := by
  cases u <;> first | rfl | cases h

/-- A fetch that is handed the byte that the Bus returns is the fetch from the Bus. -/
theorem cycle_busValue {u : MicroOp} (h : u.fetches = true) (us : List MicroOp) (s : State) :
    cycle u us (some (busValue s.pc s)) s = cycle u us none s := by
  unfold cycle
  rw [access_of_fetches h]
  rfl

/-- A sequence that is handed the bytes that it finds on the Bus, some of them or more, runs as it does from the Bus. -/
theorem runOps_busBytes (ops : List MicroOp) (bytes : List Byte) (s : State)
    (h : bytes <+: busBytes ops s ∨ busBytes ops s <+: bytes) : runOps ops bytes s = runOps ops [] s := by
  induction ops generalizing bytes s with
  | nil => rfl
  | cons u us ih =>
    unfold busBytes at h
    unfold runOps
    rw [supply_nil, rest_nil]
    by_cases hs : u.skipped s = true
    · rw [if_pos hs] at h
      rw [if_pos hs, if_pos hs]
      exact ih _ _ h
    rw [if_neg hs] at h
    rw [if_neg hs, if_neg hs]
    by_cases hf : u.fetches = true
    · rw [if_pos hf] at h
      cases bytes with
      | nil => rw [supply_nil, rest_nil]
      | cons b bs =>
        rw [List.cons_prefix_cons, List.cons_prefix_cons] at h
        obtain ⟨rfl, hbs⟩ : b = busValue s.pc s ∧ (bs <+: _ ∨ _ <+: bs) := by
          rcases h with ⟨hb, h⟩ | ⟨hb, h⟩
          · exact ⟨hb, .inl h⟩
          · exact ⟨hb.symm, .inr h⟩
        have hsupply : u.supply (busValue s.pc s :: bs) = some (busValue s.pc s) := if_pos hf
        have hrest : u.rest (busValue s.pc s :: bs) = bs := if_pos hf
        rw [hsupply, hrest, cycle_busValue hf]
        exact ih _ _ hbs
    · rw [if_neg hf] at h
      have hsupply : u.supply bytes = none := if_neg hf
      have hrest : u.rest bytes = bytes := if_neg hf
      rw [hsupply, hrest]
      exact ih _ _ h

/-- A fetch finds the byte at PC. -/
theorem busBytes_cons {u : MicroOp} (h : u.fetches = true) (us : List MicroOp) (s : State) :
    busBytes (u :: us) s = busValue s.pc s :: busBytes us (cycle u us none s) := by
  simp [busBytes, skipped_of_fetches h, h]

/-- Any other cycle that is made finds none. -/
theorem busBytes_cons_of_not_fetches {u : MicroOp} (h : u.fetches = false) (us : List MicroOp) {s : State}
    (hs : u.skipped s = false) : busBytes (u :: us) s = busBytes us (cycle u us none s) := by
  simp [busBytes, hs, h]

/-- A sequence without fetches finds no byte. -/
theorem busBytes_of_not_fetches {ops : List MicroOp} (h : ∀ u ∈ ops, u.fetches = false) (s : State) :
    busBytes ops s = [] := by
  induction ops generalizing s with
  | nil => rfl
  | cons u us ih =>
    have hus : ∀ w ∈ us, w.fetches = false := fun w hw => h w (List.mem_cons_of_mem u hw)
    simp only [busBytes, h u List.mem_cons_self, ih hus]
    simp

/-! ### What a read of the Bus depends on -/

/-- The two states answer every read of the Bus alike. -/
structure SameBus (s w : State) : Prop where
  mem : w.mem = s.mem
  busLatch : w.busLatch = s.busLatch
  freeIdx : w.freeIdx = s.freeIdx
  profile : w.profile = s.profile

theorem SameBus.trans {s w r : State} (h : SameBus s w) (k : SameBus w r) : SameBus s r :=
  ⟨k.mem.trans h.mem, k.busLatch.trans h.busLatch, k.freeIdx.trans h.freeIdx, k.profile.trans h.profile⟩

/-- The start of a sequence leaves the Bus. -/
theorem SameBus.start (s : State) : SameBus s (startInstr s) := ⟨rfl, rfl, rfl, rfl⟩

theorem SameBus.target {s w : State} (h : SameBus s w) (a : Addr) : target w a = target s a := target_congr h.profile a

theorem SameBus.busValue {s w : State} (h : SameBus s w) (a : Addr) : busValue a w = busValue a s := by
  simp only [Machine.busValue, h.target, h.mem, h.busLatch, h.freeIdx]

theorem SameBus.readThrough {s w : State} (h : SameBus s w) (a : Addr) :
    SameBus (readThrough a s) (readThrough a w) where
  mem := h.mem
  busLatch := h.busValue a
  freeIdx := by simp only [Machine.readThrough, busRead, h.target, h.freeIdx]
  profile := h.profile

theorem SameBus.busWrite {s w : State} (h : SameBus s w) (a : Addr) (v : Byte) :
    SameBus (busWrite a v s) (busWrite a v w) where
  mem := by simp only [Machine.busWrite, h.target, h.mem]
  busLatch := rfl
  freeIdx := h.freeIdx
  profile := h.profile

theorem SameBus.afterJsrPushes {s w : State} (h : SameBus s w) (hsp : w.sp = s.sp) (pc : Addr) :
    SameBus (afterJsrPushes pc s) (afterJsrPushes pc w) := by
  unfold Machine.afterJsrPushes
  rw [hsp]
  exact ((h.readThrough _).busWrite _ _).busWrite _ _

/-- The fetch sees PC, S and the Bus alone. -/
theorem SameBus.fetchBytes {s w : State} (h : SameBus s w) (hpc : w.pc = s.pc) (hsp : w.sp = s.sp) :
    fetchBytes w = fetchBytes s := by
  have hlow := (h.readThrough s.pc).readThrough (s.pc + 1)
  have hbus : SameBus (beforeThirdByte (Machine.busValue s.pc s) s) (beforeThirdByte (Machine.busValue s.pc s) w) := by
    unfold beforeThirdByte
    rw [hpc]
    split
    · exact hlow.afterJsrPushes hsp _
    · exact hlow
  simp only [fetchBytes_eq, hpc, h.busValue, (h.readThrough s.pc).busValue, hbus.busValue]

/-- Of a cycle whose register actions take no free value, the Bus sees the access alone. -/
theorem sameBus_cycle {u : MicroOp} (h : ∀ v s, (u.act v s).freeIdx = s.freeIdx) (us : List MicroOp) (v : Option Byte)
    (s : State) : SameBus (accessed u v s) (cycle u us v s) where
  mem := by
    rw [cycle_mem, accessed]
    cases u.access s <;> rfl
  busLatch := by rw [cycle_busLatch, act_busLatch]
  freeIdx := by rw [cycle_freeIdx, h]
  profile := by rw [cycle_profile, accessed_profile]

/-! ### Reads at ascending addresses -/

/-- What `n` reads at ascending addresses deliver, each seeing the Bus as the reads before it left it (R69). -/
def reads : Nat → Addr → State → List Byte
  | 0, _, _ => []
  | n + 1, a, s => busValue a s :: reads n (a + 1) (readThrough a s)

theorem reads_congr {s w : State} (h : SameBus s w) (n : Nat) (a : Addr) : reads n a w = reads n a s := by
  induction n generalizing a s w with
  | zero => rfl
  | succ n ih => rw [reads, reads, h.busValue, ih (h.readThrough a)]

theorem reads_prefix {m n : Nat} (h : m ≤ n) (a : Addr) (s : State) : reads m a s <+: reads n a s := by
  induction m generalizing n a s with
  | zero => exact List.nil_prefix
  | succ m ih =>
    obtain ⟨n, rfl⟩ : ∃ k, n = k + 1 := ⟨n - 1, by omega⟩
    exact List.cons_prefix_cons.mpr ⟨rfl, ih (by omega) _ _⟩

theorem add_two (a : Addr) : a + 2 = a + 1 + 1 := (BitVec.add_assoc a 1 1).symm

/-- The fetch of an opcode or of an address's low byte reads at PC and steps PC on; the Bus sees no more of it. -/
theorem busBytes_fetch {u : MicroOp} (hu : u = .opcode ∨ u = .argLo) (us : List MicroOp) (s : State) :
    ∃ w, busBytes (u :: us) s = busValue s.pc s :: busBytes us w ∧ SameBus (readThrough s.pc s) w ∧
      w.pc = s.pc + 1 ∧ w.sp = s.sp := by
  rcases hu with rfl | rfl
  · exact ⟨_, busBytes_cons rfl us s, sameBus_cycle (u := .opcode) (fun _ _ => rfl) us none s,
      by simp [cycle_pc, MicroOp.act], by simp [cycle_sp, MicroOp.act]⟩
  · exact ⟨_, busBytes_cons rfl us s, sameBus_cycle (u := .argLo) (fun _ _ => rfl) us none s,
      by simp [cycle_pc, MicroOp.act], by simp [cycle_sp, MicroOp.act]⟩

/-- Fetches in a row, with no fetch after them, find the bytes that reads at ascending addresses deliver. -/
theorem busBytes_of_fetches {fs vs : List MicroOp} (hf : ∀ u ∈ fs, u.fetches = true)
    (hstep : ∀ u ∈ fs.dropLast, u = .opcode ∨ u = .argLo) (hv : ∀ u ∈ vs, u.fetches = false) (s : State) :
    busBytes (fs ++ vs) s = reads fs.length s.pc s := by
  induction fs generalizing s with
  | nil => exact busBytes_of_not_fetches hv s
  | cons u fs ih =>
    have hu : u.fetches = true := hf u List.mem_cons_self
    have hfs : ∀ w ∈ fs, w.fetches = true := fun w hw => hf w (List.mem_cons_of_mem u hw)
    cases fs with
    | nil =>
      rw [List.cons_append, busBytes_cons hu, List.nil_append, busBytes_of_not_fetches hv]
      rfl
    | cons x fs =>
      obtain ⟨w, hbytes, hbus, hpc, _⟩ := busBytes_fetch (hstep u (by simp)) (x :: fs ++ vs) s
      rw [List.cons_append, hbytes, ih hfs (fun y hy => hstep y (by simp [hy])), hpc, reads_congr hbus]
      rfl

/-! ### The bytes of an opcode's sequence -/

/-- But for JSR, a sequence fetches at once, at most three bytes, of which PC steps past each before the last. -/
theorem emulatedSequence_fetches : ∀ op : Byte, op ≠ 0x20 →
    let fs := (emulatedSequence op).takeWhile MicroOp.fetches
    fs.length ≤ 3 ∧ (∀ u ∈ fs.dropLast, u = .opcode ∨ u = .argLo) ∧
      ∀ u ∈ (emulatedSequence op).dropWhile MicroOp.fetches, u.fetches = false := by
  decide

/-- But for JSR, a sequence finds the first bytes, at most three, that reads from PC on deliver. -/
theorem busBytes_emulatedSequence {op : Byte} (h : op ≠ 0x20) (s : State) :
    busBytes (emulatedSequence op) s <+: reads 3 s.pc s := by
  obtain ⟨hlen, hstep, hv⟩ := emulatedSequence_fetches op h
  rw [← List.takeWhile_append_dropWhile (p := MicroOp.fetches) (l := emulatedSequence op),
    busBytes_of_fetches (fun u hu => List.mem_takeWhile_imp hu) hstep hv]
  exact reads_prefix hlen s.pc s

/-- JSR's dummy stack read (R147 T3). -/
theorem busBytes_stackDummy (us : List MicroOp) (s : State) :
    ∃ w, busBytes (.stackDummy :: us) s = busBytes us w ∧ SameBus (readThrough (stackAddr s.sp) s) w ∧
      w.pc = s.pc ∧ w.sp = s.sp :=
  ⟨_, busBytes_cons_of_not_fetches rfl us rfl, sameBus_cycle (u := .stackDummy) (fun _ _ => rfl) us none s,
    by simp [cycle_pc, MicroOp.act], by simp [cycle_sp, MicroOp.act]⟩

/-- The push of PC's high byte (R147 T4). -/
theorem busBytes_pushHi (us : List MicroOp) (s : State) :
    ∃ w, busBytes (.pushHi :: us) s = busBytes us w ∧ SameBus (busWrite (stackAddr s.sp) (hi s.pc) s) w ∧
      w.pc = s.pc ∧ w.sp = s.sp - 1 :=
  ⟨_, busBytes_cons_of_not_fetches rfl us rfl, sameBus_cycle (u := .pushHi) (fun _ _ => rfl) us none s,
    by simp [cycle_pc, MicroOp.act], by simp [cycle_sp, MicroOp.act]⟩

/-- The push of PC's low byte (R147 T5). -/
theorem busBytes_pushLo (us : List MicroOp) (s : State) :
    ∃ w, busBytes (.pushLo :: us) s = busBytes us w ∧ SameBus (busWrite (stackAddr s.sp) (lo s.pc) s) w ∧
      w.pc = s.pc :=
  ⟨_, busBytes_cons_of_not_fetches rfl us rfl, sameBus_cycle (u := .pushLo) (fun _ _ => rfl) us none s,
    by simp [cycle_pc, MicroOp.act]⟩

/-- JSR reads its third byte on the Bus as its dummy stack read and its two pushes leave it (R147, R271). -/
theorem busBytes_jsrTail {r w : State} (h : SameBus r w) (hsp : w.sp = r.sp) :
    busBytes [.stackDummy, .pushHi, .pushLo, .argJump] w = [busValue w.pc (afterJsrPushes w.pc r)] := by
  obtain ⟨x, hbx, hx, hxpc, hxsp⟩ := busBytes_stackDummy [.pushHi, .pushLo, .argJump] w
  obtain ⟨y, hby, hy, hypc, hysp⟩ := busBytes_pushHi [.pushLo, .argJump] x
  obtain ⟨z, hbz, hz, hzpc⟩ := busBytes_pushLo [.argJump] y
  rw [hsp] at hx
  rw [hxsp, hsp, hxpc] at hy
  rw [hysp, hxsp, hsp, hypc, hxpc] at hz
  have hr := (h.readThrough (stackAddr r.sp)).trans hx
  have hp := (hr.busWrite (stackAddr r.sp) (hi w.pc)).trans hy
  have hbus : SameBus (afterJsrPushes w.pc r) z := (hp.busWrite (stackAddr (r.sp - 1)) (lo w.pc)).trans hz
  rw [hbx, hby, hbz, busBytes_cons rfl, hbus.busValue, hzpc, hypc, hxpc]
  rfl

/-- JSR finds the bytes that the reads at PC deliver (R271). -/
theorem busBytes_jsrOps {s : State} (h : busValue s.pc s = 0x20) : busBytes jsrOps (startInstr s) = fetchBytes s := by
  obtain ⟨v, hbv, hv, hvpc, hvsp⟩ := busBytes_fetch (.inl rfl) jsrOps.tail (startInstr s)
  obtain ⟨w, hbw, hw, hwpc, hwsp⟩ := busBytes_fetch (.inr rfl) [.stackDummy, .pushHi, .pushLo, .argJump] v
  have hv := ((SameBus.start s).readThrough s.pc).trans hv
  have hpc : w.pc = s.pc + 2 := by rw [hwpc, hvpc, add_two]; rfl
  rw [hvpc] at hw hbw
  have htail := busBytes_jsrTail ((hv.readThrough _).trans hw) (hwsp.trans hvsp)
  rw [show jsrOps = .opcode :: jsrOps.tail from rfl, hbv, show jsrOps.tail = .argLo :: _ from rfl, hbw, htail,
    fetchBytes_eq, beforeThirdByte, if_pos h, hpc, hv.busValue]
  rfl

/-- The bytes that a sequence finds are the first of those that the reads at PC deliver (R69, R80). -/
theorem busBytes_sequenceOf (s : State) :
    busBytes (sequenceOf s.profile.policy (busValue s.pc s)) (startInstr s) <+: fetchBytes s := by
  unfold sequenceOf
  split
  · exact List.cons_prefix_cons.mpr ⟨rfl, List.nil_prefix⟩
  by_cases hop : busValue s.pc s = 0x20
  · rw [hop]
    exact (busBytes_jsrOps hop).symm ▸ List.prefix_rfl
  · have hreads : fetchBytes s = reads 3 s.pc s := by
      rw [fetchBytes_eq, beforeThirdByte, if_neg hop, add_two]
      rfl
    rw [hreads, ← reads_congr (SameBus.start s)]
    exact busBytes_emulatedSequence hop (startInstr s)

end Sys2Proof.Machine
end

section
/-! `tick()` and `step_cycle()` (40_sequencer.md R120; 60_exceptions.md R400, R414): a sequence that runs to its end makes
the cycles that `step_cycle()` makes one at a time, up to the first boundary. -/

namespace Sys2Proof.Machine

/-! ### The queue that a cycle leaves -/

theorem skipped_advance (w : MicroOp) (us : List MicroOp) (s : State) : w.skipped (advance us s) = w.skipped s :=
  skipped_congr w rfl rfl rfl rfl rfl

theorem remaining_advance (us vs : List MicroOp) (s : State) : remaining us (advance vs s) = remaining us s := by
  simp only [remaining, skipped_advance]

/-- A cycle queues the cycles left, the first of them one that will be made. -/
theorem cycle_queue (u : MicroOp) (us : List MicroOp) (v : Option Byte) (s : State) :
    (cycle u us v s).queue = us.dropWhile fun w => w.skipped (cycle u us v s) := by
  simp only [cycle_eq, finishCycle, skipped_advance]
  rfl

/-- A cycle with another left to make stays in its sequence. -/
theorem cycle_seq {u : MicroOp} {us : List MicroOp} {v : Option Byte} {s : State}
    (h : remaining us (cycle u us v s) ≠ 0) : (cycle u us v s).seq = s.seq := by
  simp only [cycle_eq, finishCycle, remaining_advance] at h
  rw [cycle_eq, finishCycle]
  refine (if_neg h).trans ?_
  simp

/-- Only the fetch of a JAM halts the CPU (R153). -/
theorem cycle_halted_of_ne_jam {u : MicroOp} (h : u ≠ .opcodeJam) (us : List MicroOp) (v : Option Byte) (s : State) :
    (cycle u us v s).halted = s.halted := by
  rw [cycle_halted, ← accessed_halted u v s]
  cases u <;> first | rfl | exact absurd rfl h | (rename_i op; cases op <;> rfl)

/-- A cycle takes one entry of the inputs (log 8). -/
theorem cycle_inputs (u : MicroOp) (us : List MicroOp) (v : Option Byte) (s : State) :
    (cycle u us v s).inputs = s.inputs.tail := by
  rw [cycle_eq]
  simp [finishCycle]

/-- The state with another queue. -/
def State.withQueue (q : List MicroOp) (s : State) : State := { s with queue := q }

/-- The access of a cycle does not depend on the queue. -/
theorem access_withQueue (u : MicroOp) (q : List MicroOp) (s : State) : u.access (s.withQueue q) = u.access s := by
  cases u
  case modify op => cases op <;> rfl
  all_goals rfl

/-- The register actions neither read nor write the queue. -/
theorem act_withQueue (u : MicroOp) (v : Byte) (q : List MicroOp) (s : State) :
    u.act v (s.withQueue q) = (u.act v s).withQueue q := by
  cases u
  case imm op => cases op <;> rfl
  case read op => cases op <;> rfl
  case modify op => cases op <;> rfl
  case implied op => cases op <;> rfl
  case writeUnstable op => cases op <;> rfl
  all_goals rfl

theorem skipped_withQueue (u : MicroOp) (q : List MicroOp) (s : State) : u.skipped (s.withQueue q) = u.skipped s :=
  skipped_congr u rfl rfl rfl rfl rfl

theorem remaining_withQueue (us q : List MicroOp) (s : State) : remaining us (s.withQueue q) = remaining us s := by
  simp only [remaining, skipped_withQueue]

/-- The end of a cycle sets the queue, whatever it was. -/
theorem finishCycle_withQueue (u : MicroOp) (us : List MicroOp) (v : Byte) (q : List MicroOp) (s : State) :
    finishCycle u us v (s.withQueue q) = finishCycle u us v s := by
  have hlate : ∀ (b : Bool) (r : State),
      u.late (endOfCycle b (r.withQueue q)) = (u.late (endOfCycle b r)).withQueue q := fun _ _ => by
    unfold MicroOp.late
    split <;> rfl
  have hpoll : ∀ (k : Nat) (r : State), isPollPoint k (r.withQueue q) = isPollPoint k r := fun _ _ => rfl
  have hadv : ∀ r : State, advance us (r.withQueue q) = advance us r := fun r => by
    simp only [advance, remaining_withQueue, skipped_withQueue]
    rfl
  simp only [finishCycle, act_withQueue, remaining_withQueue, hpoll, hlate, hadv]

/-- A cycle does not depend on the queue it is made from. -/
theorem cycle_withQueue (u : MicroOp) (us : List MicroOp) (v : Option Byte) (q : List MicroOp) (s : State) :
    cycle u us v (s.withQueue q) = cycle u us v s := by
  have hdel : delivered u v (s.withQueue q) = delivered u v s := by
    unfold delivered
    rw [access_withQueue]
    cases u.access s <;> rfl
  have hacc : accessed u v (s.withQueue q) = (accessed u v s).withQueue q := by
    unfold accessed
    rw [access_withQueue]
    cases u.access s <;> rfl
  rw [cycle_eq, cycle_eq, hdel, hacc, finishCycle_withQueue]

/-- A sequence with a cycle to make does not read the queue that it starts with. -/
theorem runOps_withQueue {ops : List MicroOp} {s : State} (h : remaining ops s ≠ 0) (bytes : List Byte)
    (q : List MicroOp) : runOps ops bytes (s.withQueue q) = runOps ops bytes s := by
  induction ops with
  | nil => exact absurd rfl h
  | cons u us ih =>
    unfold runOps
    rw [skipped_withQueue, cycle_withQueue]
    split
    · next hs => exact ih (by simpa [remaining, hs] using h)
    · rfl

/-! ### From a cycle to the next -/

/-- No `step_cycle()` call is stalled (R85; log 19). -/
def Unstalled (s : State) : Prop := ∀ e ∈ s.inputs, e.stall = 0

theorem Unstalled.cycle {s : State} (h : Unstalled s) (u : MicroOp) (us : List MicroOp) (v : Option Byte) :
    Unstalled (cycle u us v s) := fun e he => h e (List.mem_of_mem_tail (cycle_inputs u us v s ▸ he))

/-- A call that is not stalled makes a cycle. -/
theorem stepCycle_of_unstalled {s : State} (h : Unstalled s) : stepCycle s = unstalledCycle s := by
  unfold stepCycle
  split
  · next hin => exact absurd (h _ (hin ▸ List.mem_cons_self)) (by simp)
  · rfl

/-- The machine is inside a sequence, with a cycle of it to make. -/
def State.Inside (s : State) : Prop := s.seq ≠ .fetch ∧ s.halted = false

/-- A machine inside a sequence is at no boundary. -/
theorem State.Inside.not_atBoundary {s : State} (h : s.Inside) : ¬ s.AtBoundary := fun hb =>
  h.1 (by simpa [h.2] using hb.seq_eq)

/-- A cycle with another left to make leaves the machine inside its sequence. -/
theorem State.Inside.cycle {s : State} (h : s.Inside) {u : MicroOp} (hu : u ≠ .opcodeJam) {us : List MicroOp}
    {v : Option Byte} (hr : remaining us (cycle u us v s) ≠ 0) : (cycle u us v s).Inside := by
  obtain ⟨hseq, hh⟩ := h
  exact ⟨by rwa [cycle_seq hr], by rwa [cycle_halted_of_ne_jam hu]⟩

/-- Inside a sequence a call makes the cycle at the head of the queue. -/
theorem stepCycle_of_inside {s : State} {u : MicroOp} {us : List MicroOp} (hst : Unstalled s) (hin : s.Inside)
    (hq : s.queue = u :: us) : stepCycle s = cycle u us none s := by
  obtain ⟨hseq, hh⟩ := hin
  simp only [stepCycle_of_unstalled hst, unstalledCycle, hh, hseq, runQueued, hq]
  simp

/-- `n` calls of `step_cycle()` lead from `s` to `t`, and the machine is inside a sequence before each of them. -/
structure CyclesTo (n : Nat) (s t : State) : Prop where
  run    : runCycles n s = t
  cycles : t.cycles = s.cycles + n
  inside : ∀ k < n, (runCycles k s).Inside

/-- One call, then the others. -/
theorem CyclesTo.cons {n : Nat} {s r t : State} (hs : s.Inside) (hr : stepCycle s = r) (hc : r.cycles = s.cycles + 1)
    (h : CyclesTo n r t) : CyclesTo (n + 1) s t where
  run := by rw [runCycles, hr, h.run]
  cycles := by rw [h.cycles, hc]; omega
  inside := fun k hk => by
    cases k with
    | zero => exact hs
    | succ k =>
      rw [runCycles, hr]
      exact h.inside k (by omega)

/-- The cycles that are queued run to the end of their sequence, one call each. -/
theorem cyclesTo_runOps (ops : List MicroOp) (s : State) (hst : Unstalled s)
    (hq : s.queue = ops.dropWhile fun u => u.skipped s) (hin : remaining ops s ≠ 0 → s.Inside)
    (hjam : ∀ u ∈ ops.dropLast, u ≠ .opcodeJam) :
    ∃ n, CyclesTo n s (runOps ops [] s) := by
  induction ops generalizing s with
  | nil => exact ⟨0, rfl, rfl, fun k hk => absurd hk (Nat.not_lt_zero k)⟩
  | cons u us ih =>
    have hjams : ∀ w ∈ us.dropLast, w ≠ .opcodeJam := fun w hw => hjam w (by
      cases us with
      | nil => cases hw
      | cons x xs => exact List.mem_cons_of_mem u hw)
    by_cases hs : u.skipped s = true
    · have hrun : runOps (u :: us) [] s = runOps us [] s := if_pos hs
      rw [hrun]
      exact ih s hst (by simpa [hs] using hq) (by simpa [remaining, hs] using hin) hjams
    · have hs : u.skipped s = false := by simpa using hs
      have hin : s.Inside := hin (by simp [remaining, hs])
      have hrun : runOps (u :: us) [] s = runOps us [] (cycle u us none s) := by
        rw [runOps_cons hs, supply_nil, rest_nil]
      have hnext : remaining us (cycle u us none s) ≠ 0 → (cycle u us none s).Inside := fun hr => by
        have hu : u ≠ .opcodeJam := hjam u (by
          cases us with
          | nil => exact absurd rfl hr
          | cons x xs => exact List.mem_cons_self)
        exact hin.cycle hu hr
      obtain ⟨n, hn⟩ := ih _ (hst.cycle u us none) (cycle_queue u us none s) hnext hjams
      rw [hrun]
      exact ⟨n + 1, .cons hin (stepCycle_of_inside hst hin (by simpa [hs] using hq)) (cycle_cycles ..) hn⟩

/-! ### A whole sequence -/

/-- A JAM's opcode fetch is the last cycle of its sequence (R153). -/
theorem not_jam_of_mem_dropLast (op : Byte) : ∀ u ∈ (emulatedSequence op).dropLast, u ≠ .opcodeJam := by
  revert op
  decide

/-- A sequence starts with a cycle that is made whatever the state. -/
theorem sequenceOf_head (p : Policy) (op : Byte) :
    ∃ u us, sequenceOf p op = u :: us ∧ ∀ s, u.skipped s = false := by
  unfold sequenceOf
  split
  · exact ⟨.opcodeTrap, [], rfl, fun _ => rfl⟩
  rcases emulatedSequence_head op with h | h
  · obtain ⟨us, hus⟩ := List.head?_eq_some_iff.mp h
    exact ⟨_, us, hus, fun _ => rfl⟩
  · obtain ⟨us, hus⟩ := List.head?_eq_some_iff.mp h
    exact ⟨_, us, hus, fun _ => rfl⟩

/-- The sequence that begins at a boundary: the interrupt entry or the opcode's (R120). -/
theorem beginSequence_queue (s : State) :
    (beginSequence s).queue =
      if s.intNext ≠ .none then entryOps else sequenceOf s.profile.policy (busValue s.pc s) := by
  unfold beginSequence
  split <;> rfl

/-- It starts with a cycle that is made whatever the state. -/
theorem beginSequence_head (s : State) :
    ∃ u us, (beginSequence s).queue = u :: us ∧ ∀ r, u.skipped r = false := by
  rw [beginSequence_queue]
  split
  · exact ⟨.entryStart, entryOps.tail, rfl, fun _ => rfl⟩
  · exact sequenceOf_head _ _

/-- Only its last cycle may halt the CPU (R153). -/
theorem beginSequence_not_jam (s : State) : ∀ u ∈ (beginSequence s).queue.dropLast, u ≠ .opcodeJam := by
  rw [beginSequence_queue]
  split
  · decide
  · unfold sequenceOf
    split
    · decide
    · exact not_jam_of_mem_dropLast _

/-- With it the machine is inside a sequence. -/
theorem beginSequence_inside {s : State} (h : s.halted = false) : (beginSequence s).Inside := by
  unfold beginSequence
  split
  · exact ⟨Seq.noConfusion, h⟩
  · exact ⟨Seq.noConfusion, h⟩

theorem Unstalled.begin {s : State} (h : Unstalled s) : Unstalled (beginSequence s) := by
  unfold beginSequence
  split <;> exact h

theorem beginSequence_cycles (s : State) : (beginSequence s).cycles = s.cycles := by
  unfold beginSequence
  split <;> rfl

/-- At a boundary the first call begins the sequence that it makes the first cycle of (R120). -/
theorem stepCycle_begin {s : State} (hst : Unstalled s) (hseq : s.seq = .fetch) (hh : s.halted = false) :
    stepCycle s = stepCycle (beginSequence s) := by
  obtain ⟨hin, hh'⟩ := beginSequence_inside hh
  rw [stepCycle_of_unstalled hst, stepCycle_of_unstalled hst.begin, unstalledCycle, unstalledCycle, hh, hh', if_pos hseq,
    if_neg hin]
  simp

/-- The instruction at PC runs the sequence that its opcode selects, on the Bus (R120). -/
theorem runNext_eq (s : State) :
    runNext s = .next (runOps (sequenceOf s.profile.policy (busValue s.pc s)) [] (startInstr s)) := by
  obtain ⟨i, rest, hd, hop, _⟩ := encodeInvertsDecode.1 (busValue s.pc s) (busValue (s.pc + 1) (readThrough s.pc s))
    (busValue (s.pc + 2) (beforeThirdByte (busValue s.pc s) s)) []
  rw [← fetchBytes_eq] at hd
  obtain ⟨hw, hbytes⟩ := encodeInvertsDecode.2 _ _ _ hd
  have henc : encode i <+: fetchBytes s := ⟨rest, hbytes⟩
  simp only [runNext, hd]
  rw [exec_eq i s hw, hop]
  exact congrArg _ (runOps_busBytes _ _ _ (List.prefix_or_prefix_of_prefix henc (busBytes_sequenceOf s)))

/-- At a boundary that the CPU is not halted at, the sequence run is the one that `step_cycle()` begins (R120, R400). -/
theorem runSequence_begin {s : State} (hseq : s.seq = .fetch) (hh : s.halted = false) :
    runSequence s = .next (runOps (beginSequence s).queue [] (beginSequence s)) := by
  have hfetch : runSequence s = if s.intNext ≠ .none then .next (takeInterrupt s) else runNext s := by
    simp [runSequence, hh, hseq]
  rw [hfetch]
  unfold beginSequence
  split
  · exact congrArg _ (runOps_withQueue (by simp [remaining, entryOps, MicroOp.skipped]) [] entryOps).symm
  · rw [runNext_eq]
    exact congrArg _ (runOps_withQueue (remaining_sequenceOf _ _ _) [] (sequenceOf s.profile.policy _)).symm

/-- A machine that is not Paused ticks by a sequence and the boundary check (R400). -/
theorem tick_of_runSequence {s t : State} (hr : s.runState ≠ .paused) (h : runSequence s = .next t) :
    tick s = .next (boundaryCheck t) := by
  simp only [tick, if_neg hr, runAndCheck, h]

/-- From a boundary, calls of `step_cycle()` lead to the end of the sequence, and to no boundary before it. -/
theorem runCycles_runSequence {s : State} (hb : s.AtBoundary) (hst : Unstalled s) :
    ∃ t n, 0 < n ∧ t = runCycles n s ∧ t.AtBoundary ∧ t.cycles = s.cycles + n ∧
      (∀ k, 0 < k → k < n → (runCycles k s).Inside) ∧ runSequence s = .next t := by
  cases hh : s.halted
  case true =>
    have hone : runCycles 1 s = haltedCycle s := by
      rw [runCycles, runCycles, stepCycle_of_unstalled hst, unstalledCycle, if_pos hh]
    exact ⟨_, 1, Nat.one_pos, hone.symm, ⟨hb.seq_eq, hb.queue_eq⟩, rfl, fun k h0 h1 => by omega, if_pos hh⟩
  case false =>
    have hseq : s.seq = .fetch := by simpa [hh] using hb.seq_eq
    have hin : (beginSequence s).Inside := beginSequence_inside hh
    obtain ⟨u, us, hq, hu⟩ := beginSequence_head s
    have hdrop : (beginSequence s).queue = (beginSequence s).queue.dropWhile fun w => w.skipped (beginSequence s) := by
      simp [hq, hu]
    have hend : (runOps (beginSequence s).queue [] (beginSequence s)).AtBoundary := by
      rw [hq]
      exact runOps_boundary us [] (hu _)
    obtain ⟨n, hn⟩ := cyclesTo_runOps _ _ hst.begin hdrop (fun _ => hin) (beginSequence_not_jam s)
    have hrun : ∀ k, 0 < k → runCycles k s = runCycles k (beginSequence s) := fun k hk => by
      obtain ⟨j, rfl⟩ : ∃ j, k = j + 1 := ⟨k - 1, by omega⟩
      rw [runCycles, runCycles, stepCycle_begin hst hseq hh]
    have hpos : 0 < n := Nat.pos_of_ne_zero fun h0 => by
      subst h0
      have hnone : beginSequence s = runOps (beginSequence s).queue [] (beginSequence s) := hn.run
      exact hin.not_atBoundary (hnone ▸ hend)
    exact ⟨_, n, hpos, by rw [hrun n hpos, hn.run], hend, by rw [hn.cycles, beginSequence_cycles],
      fun k h0 hk => hrun k h0 ▸ hn.inside k hk, runSequence_begin hseq hh⟩

/-! ### The statements -/

/-- Settles O8: a step that ticks runs a sequence from a boundary, whose cycles `step_cycle()` makes one call each. -/
theorem tickIsRepeatedStepCycle : Obligations.TickIsRepeatedStepCycle := by
  intro s hinv ⟨hn, hr⟩ hst
  obtain ⟨t, n, hpos, ht, hb, hc, hin, hseq⟩ := runCycles_runSequence (inv_scriptTaken hinv).boundary hst
  exact ⟨t, n, hpos, ht, hb, hc, hin, by rw [step_tick hn, tick_of_runSequence (s := scriptTaken s) hr hseq]⟩

/-- The fetch does not see the host's script. -/
theorem fetchBytes_scriptTaken (s : State) : fetchBytes (scriptTaken s) = fetchBytes s :=
  SameBus.fetchBytes (s := s) (w := scriptTaken s) ⟨rfl, rfl, rfl, rfl⟩ rfl rfl

/-- Settles O6: the step is a tick, its sequence is the instruction at PC, and the fetch does not see the script. -/
theorem stepRunsTheDecodedInstruction : Obligations.StepRunsTheDecodedInstruction := by
  intro s t i rest ⟨hn, hr⟩ ⟨hseq, hh, hi⟩ hd he
  have hnext : runNext (scriptTaken s) = .next t := by
    simp only [runNext, fetchBytes_scriptTaken, hd, he]
  have hrun : runSequence (scriptTaken s) = .next t := by
    rw [← hnext]
    simp [runSequence, scriptTaken, hseq, hh, hi]
  rw [step_tick hn, tick_of_runSequence (s := scriptTaken s) hr hrun]

end Sys2Proof.Machine
end

section
/-! JAM, which halts the CPU (40_sequencer.md R153, 45_undocumented.md R345). -/

namespace Sys2Proof.Machine

/-- The rows of JAM run its one cycle (R153). -/
theorem rowsJam_run : ∀ r ∈ rowsJam, emulatedSequence r.1 = jamOps := by decide

/-- The opcode fetch of a JAM halts the CPU and keeps what a fetch keeps (R153). -/
theorem opcodeJam_same (us : List MicroOp) (v : Option Byte) (s : State) :
    Same { s with halted := true } (cycle .opcodeJam us v s) := by
  refine cycle_same_of_read (u := .opcodeJam) (s := s) rfl (fun _ => ?_) us v
  exact ⟨rfl, rfl, rfl, rfl, rfl, rfl, rfl, rfl, rfl, rfl, rfl, rfl, rfl, fun hb => faultAfter_eq (s := s) hb _⟩

/-- Settles O26: under `emulate` the sequence of a JAM is its halting opcode fetch alone. -/
theorem jamHaltsTheCpu : Obligations.JamHaltsTheCpu := by
  intro i s hrow hp
  refine ⟨rowRight_of rowsJam_right hrow, ?_⟩
  obtain ⟨hw, r, hr, hop⟩ := hrow
  have hexec : exec i s = .next (runOps jamOps (encode i) (startInstr s)) := by
    rw [exec_eq i s hw, hp, sequenceOf_emulate, ← hop, rowsJam_run r hr]
  have hb : (runOps jamOps (encode i) (startInstr s)).AtBoundary := runOps_boundary [] _ rfl
  have hsame := opcodeJam_same [] (MicroOp.opcodeJam.supply (encode i)) (startInstr s)
  have hrun : runOps jamOps (encode i) (startInstr s) =
      cycle .opcodeJam [] (MicroOp.opcodeJam.supply (encode i)) (startInstr s) := rfl
  rw [hrun] at hexec hb
  have hh := hsame.halted
  refine ⟨_, hexec, hsame.view, ?_, hh, ?_, hb.queue_eq, cycle_cycles .., hsame.fault⟩
  · simp [cycle_pc, MicroOp.act, startInstr]
  · simpa [hh] using hb.seq_eq

end Sys2Proof.Machine
end

section
/-! Loads, stores and transfers (41_load_store_transfer.md): what the operation of each does to the programmer's view, and
the classes of 40_sequencer.md run with it. -/

namespace Sys2Proof.Machine

/-! ### Operations that change the view alone -/

/-- A read operation does `w M` to the view, whatever the rest of the state. -/
def ReadOp.Acts (op : ReadOp) (w : Byte → View → View) : Prop := ∀ m s, (op.apply m s).view = w m s.view

/-- An implied operation does `w` to the view, whatever the rest of the state. -/
def ImpliedOp.Acts (op : ImpliedOp) (w : View → View) : Prop := ∀ s, (op.apply s).view = w s.view

/-- The counter of free bytes is not in the view. -/
@[simp] theorem withFree_view (k : Nat) (s : State) : (s.withFree k).view = s.view := rfl

/-- A documented instruction of the read class does to the view what its operation does with M (R122). -/
theorem ReadOp.Acts.row {op : ReadOp} {w : Byte → View → View} (hop : op.Acts w) {rows : Rows} {i : Instr} {s : State}
    (hrun : RowsRun rows .read readModes (fun m => readSeq m op)) (hright : RowsRight rows) (hlegal : RowsLegal rows)
    (h : i.hasRow rows) :
    i.rowRight rows ∧ ∃ t, exec i s = .next t ∧ Completes i s t ∧ OperandRead i s t ∧
      t.view = w t.busLatch s.view := by
  obtain ⟨hr, t, f, ht, hc, ho, hv⟩ := read_row hrun hright h (.inl hlegal)
  exact ⟨hr, t, ht, hc, ho, by rw [hv, hop, withFree_view]⟩

/-- A documented instruction of the implied class does to the view what its operation does, after the dummy read of the
byte after the opcode (R124). -/
theorem ImpliedOp.Acts.row {op : ImpliedOp} {w : View → View} (hop : op.Acts w) {rows : Rows} {i : Instr} {s : State}
    (hrun : RowsRun rows .implied [.imp] (fun _ => impliedOps op)) (hright : RowsRight rows) (hlegal : RowsLegal rows)
    (h : i.hasRow rows) :
    i.rowRight rows ∧ ∃ t, exec i s = .next t ∧ Completes i s t ∧
      t.portLog = readEvents (target s (s.pc + 1)) ++ readEvents (target s s.pc) ++ s.portLog ∧
      t.view = w s.view := by
  obtain ⟨t, f, ht, hc, hlog, hv⟩ := implied_row hrun (by simp) h (.inl hlegal)
  exact ⟨rowRight_of hright h, t, ht, hc, hlog, by rw [hv, hop, withFree_view]⟩

/-! ### Loads (R170 to R172) -/

theorem lda_acts : ReadOp.lda.Acts (fun m v => { v with a := m }.nz m) := fun _ _ => rfl

theorem ldx_acts : ReadOp.ldx.Acts (fun m v => { v with x := m }.nz m) := fun _ _ => rfl

theorem ldy_acts : ReadOp.ldy.Acts (fun m v => { v with y := m }.nz m) := fun _ _ => rfl

/-- Settles O28: the read class, with the operation of each load. -/
theorem loadsSetTheirRegister : Obligations.LoadsSetTheirRegister := by
  intro i s
  exact ⟨lda_acts.row rowsLda_run rowsLda_right rowsLda_legal,
    ldx_acts.row rowsLdx_run rowsLdx_right rowsLdx_legal,
    ldy_acts.row rowsLdy_run rowsLdy_right rowsLdy_legal⟩

/-! ### Stores (R173 to R175) -/

/-- Settles O29: the write class, with the register that each store writes. -/
theorem storesWriteTheirRegister : Obligations.StoresWriteTheirRegister := by
  intro i s hmem
  exact ⟨fun h => write_row rowsSta_run rowsSta_right h (.inl rowsSta_legal) hmem,
    fun h => write_row rowsStx_run rowsStx_right h (.inl rowsStx_legal) hmem,
    fun h => write_row rowsSty_run rowsSty_right h (.inl rowsSty_legal) hmem⟩

/-! ### Transfers (R176 to R181) -/

theorem tax_acts : ImpliedOp.tax.Acts (fun v => { v with x := v.a }.nz v.a) := fun _ => rfl

theorem tay_acts : ImpliedOp.tay.Acts (fun v => { v with y := v.a }.nz v.a) := fun _ => rfl

theorem txa_acts : ImpliedOp.txa.Acts (fun v => { v with a := v.x }.nz v.x) := fun _ => rfl

theorem tya_acts : ImpliedOp.tya.Acts (fun v => { v with a := v.y }.nz v.y) := fun _ => rfl

theorem tsx_acts : ImpliedOp.tsx.Acts (fun v => { v with x := v.sp }.nz v.sp) := fun _ => rfl

/-- TXS moves X and sets no flag (R181). -/
theorem txs_acts : ImpliedOp.txs.Acts (fun v => { v with sp := v.x }) := fun _ => rfl

/-- Settles O30: the implied class, with the operation of each transfer. -/
theorem transfersMoveRegisters : Obligations.TransfersMoveRegisters := by
  intro i s
  exact ⟨tax_acts.row rowsTax_run rowsTax_right rowsTax_legal,
    tay_acts.row rowsTay_run rowsTay_right rowsTay_legal,
    txa_acts.row rowsTxa_run rowsTxa_right rowsTxa_legal,
    tya_acts.row rowsTya_run rowsTya_right rowsTya_legal,
    tsx_acts.row rowsTsx_run rowsTsx_right rowsTsx_legal,
    txs_acts.row rowsTxs_run rowsTxs_right rowsTxs_legal⟩

end Sys2Proof.Machine
end

section
/-! The stack instructions (42_stack.md R200 to R203): runs of cycles told by the view and the register-hook calls they leave,
which compose, and the pushes and pulls that follow an opcode fetch and its dummy read. -/

namespace Sys2Proof.Machine

/-! ### Runs of cycles, told by what they leave -/

/-- The register-hook calls that an access makes (R62, R63). -/
def Access.events (s : State) : Access → List PortEvent
  | .read a => readEvents (target s a)
  | .write a v => writeEvents (target s a) v

theorem accessed_portLog (u : MicroOp) (x : Option Byte) (s : State) :
    (accessed u x s).portLog = (u.access s).events s ++ s.portLog := by
  unfold accessed
  cases u.access s <;> rfl

/-- After a cycle the view is the one that its register actions leave. -/
theorem cycle_view (u : MicroOp) (us : List MicroOp) (x : Option Byte) (s : State) :
    (cycle u us x s).view = (u.act (delivered u x s) (accessed u x s)).view := by
  refine view_of ⟨cycle_a .., cycle_x .., cycle_y .., cycle_sp .., cycle_fN .., cycle_fV .., cycle_fD .., cycle_fI ..,
    cycle_fZ .., cycle_fC ..⟩ (stored_congr ?_ (by simp))
  rw [cycle_mem, act_mem]
  unfold accessed
  cases u.access s <;> rfl

/-- A cycle keeps memory canonical. -/
theorem cycle_mem_wf (u : MicroOp) (us : List MicroOp) (x : Option Byte) {s : State} (h : Memory.wf s.mem = true) :
    Memory.wf (cycle u us x s).mem = true := by
  rw [cycle_mem]
  split
  · exact h
  · exact memAfterWrite_wf _ _ h

/-- Cycles run from `s` to `w`: PC has advanced by `n`, the clock by `k`, the view is `v`, and the hook calls made are `log`,
newest first; memory stays canonical, and the rest is as an instruction leaves it (`Untouched`). -/
structure RunsTo (s w : State) (n k : Nat) (v : View) (log : List PortEvent) : Prop where
  view    : w.view = v
  pc      : w.pc = s.pc + BitVec.ofNat 16 n
  cycles  : w.cycles = s.cycles + k
  log     : w.portLog = log ++ s.portLog
  mem_wf  : Memory.wf s.mem = true → Memory.wf w.mem = true
  profile : w.profile = s.profile
  halted  : w.halted = s.halted
  fault   : s.noBusFault → w.fault = s.fault

theorem RunsTo.noBusFault {s w : State} {n k : Nat} {v : View} {log : List PortEvent} (h : RunsTo s w n k v log)
    (hs : s.noBusFault) : w.noBusFault := by
  unfold State.noBusFault
  rw [h.profile]
  exact hs

theorem RunsTo.trans {s w t : State} {n m k j : Nat} {v v' : View} {log log' : List PortEvent}
    (h : RunsTo s w n k v log) (h' : RunsTo w t m j v' log') : RunsTo s t (n + m) (k + j) v' (log' ++ log) where
  view := h'.view
  pc := by rw [h'.pc, h.pc, BitVec.add_assoc, BitVec.ofNat_add]
  cycles := by rw [h'.cycles, h.cycles, Nat.add_assoc]
  log := by rw [h'.log, h.log, List.append_assoc]
  mem_wf := fun hs => h'.mem_wf (h.mem_wf hs)
  profile := h'.profile.trans h.profile
  halted := h'.halted.trans h.halted
  fault := fun hs => (h'.fault (h.noBusFault hs)).trans (h.fault hs)

/-- The start of an instruction changes the sequencer alone. -/
theorem RunsTo.of_startInstr {s w : State} {n k : Nat} {v : View} {log : List PortEvent}
    (h : RunsTo (startInstr s) w n k v log) : RunsTo s w n k v log :=
  ⟨h.view, h.pc, h.cycles, h.log, h.mem_wf, h.profile, h.halted, h.fault⟩

/-- One cycle, but for a JAM's and a trapped fetch: its access and its register actions. -/
theorem cycle_runsTo {u : MicroOp} {n : Nat} (hjam : u ≠ .opcodeJam) (htrap : u ≠ .opcodeTrap)
    (hpc : ∀ d r, (u.act d r).pc = r.pc + BitVec.ofNat 16 n) (us : List MicroOp) (x : Option Byte) (s : State) :
    RunsTo s (cycle u us x s) n 1 (u.act (delivered u x s) (accessed u x s)).view ((u.access s).events s) where
  view := cycle_view ..
  pc := by rw [cycle_pc, hpc, accessed_pc]
  cycles := cycle_cycles ..
  log := by rw [cycle_portLog, act_portLog, accessed_portLog]
  mem_wf := cycle_mem_wf u us x
  profile := cycle_profile ..
  halted := cycle_halted_of_ne_jam hjam us x s
  fault := fun hs => (cycle_fault_eq htrap us x s).trans (faultAfter_eq hs _)

/-- One read cycle, whose register actions do `f d` to the view with the byte `d` it delivers. -/
theorem read_runsTo {u : MicroOp} {n : Nat} {a : Addr} {f : Byte → View → View} {s : State}
    (hread : u.access s = .read a) (hjam : u ≠ .opcodeJam) (htrap : u ≠ .opcodeTrap)
    (hpc : ∀ d r, (u.act d r).pc = r.pc + BitVec.ofNat 16 n) (hview : ∀ d r, (u.act d r).view = f d r.view)
    (us : List MicroOp) (x : Option Byte) :
    RunsTo s (cycle u us x s) n 1 (f (cycle u us x s).busLatch s.view) (readEvents (target s a)) := by
  have h := cycle_runsTo hjam htrap hpc us x s
  have hlatch : (cycle u us x s).busLatch = delivered u x s := by rw [cycle_busLatch, act_busLatch, accessed_busLatch]
  have hkept : (accessed u x s).view = s.view := by
    unfold accessed
    rw [hread]
    rfl
  rw [hview, hkept, hread] at h
  rw [hlatch]
  exact h

/-- A read that fetches no instruction byte delivers the byte stored at its address. -/
theorem read_busLatch {u : MicroOp} {a : Addr} {v : Byte} {s : State} (hread : u.access s = .read a)
    (hv : s.stored a = some v) (us : List MicroOp) : (cycle u us none s).busLatch = v := by
  rw [cycle_busLatch, act_busLatch, accessed_busLatch, delivered, hread]
  exact busValue_of_stored hv

/-- The cycles of an instruction's sequence, none of them extra, complete it. -/
theorem RunsTo.completes {i : Instr} {s t : State} {n k : Nat} {v : View} {log : List PortEvent}
    (h : RunsTo s t n k v log) {us : List MicroOp} {bytes : List Byte}
    (ht : t = runOps (.opcode :: us) bytes (startInstr s)) (hn : opLength i.opcode = n) (hk : i.baseCycles = k)
    (hx : extraCycles i s = some 0) : Completes i s t where
  ends := ends_of ht (remaining_opcode _ _) h.halted h.fault
  pc := by rw [hn, h.pc]
  cycles := fun e he => by
    obtain rfl := Option.some.inj (hx.symm.trans he)
    rw [h.cycles, hk, Nat.add_zero]

/-! ### The cycles of a stack instruction -/

/-- The opcode fetch and the dummy read of the byte after it (R151). -/
theorem opcode_dummyPC_runsTo (us : List MicroOp) (o : Byte) (s : State) :
    ∃ w, runOps (.opcode :: .dummyPC :: us) [o] (startInstr s) = runOps us [] w ∧
      RunsTo s w 1 2 s.view (readEvents (target s (s.pc + 1)) ++ readEvents (target s s.pc)) := by
  obtain ⟨w, hw⟩ : ∃ w, w = cycle .opcode (.dummyPC :: us) (some o) (startInstr s) := ⟨_, rfl⟩
  have h1 : RunsTo s w 1 1 s.view (readEvents (target s s.pc)) :=
    hw ▸ RunsTo.of_startInstr (read_runsTo (u := .opcode) (f := fun _ v => v) rfl (by decide) (by decide)
      (fun _ _ => rfl) (fun _ _ => rfl) _ _)
  have h2 : RunsTo w (cycle .dummyPC us none w) 0 1 w.view (readEvents (target w w.pc)) :=
    read_runsTo (u := .dummyPC) (f := fun _ v => v) rfl (by decide) (by decide)
      (fun _ _ => (BitVec.add_zero _).symm) (fun _ _ => rfl) _ _
  rw [target_congr h1.profile, h1.pc, h1.view] at h2
  exact ⟨_, by rw [hw]; rfl, h1.trans h2⟩

/-- The dummy read at the old S, which then rises by one (R24, R151). -/
theorem stackInc_runsTo (us : List MicroOp) (s : State) :
    RunsTo s (cycle .stackInc us none s) 0 1 { s.view with sp := s.sp + 1 } (readEvents (target s (stackAddr s.sp))) :=
  read_runsTo (u := .stackInc) (f := fun _ v => { v with sp := v.sp + 1 }) rfl (by decide) (by decide)
    (fun _ _ => (BitVec.add_zero _).symm) (fun _ _ => rfl) us none

/-- A push stores its byte at the old S, which then drops by one (R24, R63). -/
theorem push_runsTo {u : MicroOp} {v : Byte} {s : State} (hacc : u.access s = .write (stackAddr s.sp) v)
    (hact : ∀ d r, u.act d r = { r with sp := r.sp - 1 }) (hm : Memory.wf s.mem = true) (us : List MicroOp) :
    RunsTo s (cycle u us none s) 0 1 { s.view with sp := s.sp - 1, cells := s.afterPush s.sp v s.stored }
      (writeEvents (target s (stackAddr s.sp)) v) := by
  have hjam : u ≠ .opcodeJam := by rintro rfl; cases hacc
  have htrap : u ≠ .opcodeTrap := by rintro rfl; cases hacc
  have h := cycle_runsTo (n := 0) hjam htrap (fun d r => by rw [hact, BitVec.add_zero]) us none s
  have hstored : (busWrite (stackAddr s.sp) v s).stored = s.afterPush s.sp v s.stored :=
    stored_memAfterWrite (s := s) hm rfl rfl
  rw [hact, accessed, hacc] at h
  rw [← hstored]
  exact h

/-- The micro-operation pushes the byte `val` of the view and lowers S (R24). -/
structure MicroOp.Pushes (u : MicroOp) (val : View → Byte) : Prop where
  skipped : ∀ s, u.skipped s = false
  access  : ∀ s, u.access s = .write (stackAddr s.sp) (val s.view)
  act     : ∀ d s, u.act d s = { s with sp := s.sp - 1 }

/-- The micro-operation reads a byte `d` at S, as the last cycle of a pull, and does `f d` to the view (R24). -/
structure MicroOp.Pulls (u : MicroOp) (f : Byte → View → View) : Prop where
  skipped : ∀ s, u.skipped s = false
  fetches : u.fetches = false
  access  : ∀ s, u.access s = .read (stackAddr s.sp)
  pc      : ∀ d s, (u.act d s).pc = s.pc
  view    : ∀ d s, (u.act d s).view = f d s.view

/-- The last cycle of a pull reads at S (R24). -/
theorem MicroOp.Pulls.runsTo {u : MicroOp} {f : Byte → View → View} (hu : u.Pulls f) (us : List MicroOp) (s : State) :
    RunsTo s (cycle u us none s) 0 1 (f (cycle u us none s).busLatch s.view)
      (readEvents (target s (stackAddr s.sp))) := by
  have hjam : u ≠ .opcodeJam := by rintro rfl; cases hu.fetches
  have htrap : u ≠ .opcodeTrap := by rintro rfl; cases hu.fetches
  exact read_runsTo (hu.access s) hjam htrap (fun d r => by rw [hu.pc, BitVec.add_zero]) hu.view us none

/-! ### Pushes and pulls, from a row -/

/-- Every opcode of the rows takes `k` cycles, as the encoding line says. -/
def RowsTake (rows : Rows) (k : Nat) : Prop := ∀ r ∈ rows, r.2.2 = k

/-- An instruction of one of the rows takes the cycles of the rows. -/
theorem baseCycles_of {rows : Rows} {i : Instr} {k : Nat} (hk : RowsTake rows k) (h : i.rowRight rows) :
    i.baseCycles = k := hk _ h

/-- A stack instruction of one of the rows runs its opcode fetch and dummy read, then the cycles of the rows; run through,
they complete it (R151, R154). -/
theorem stack_row {rows : Rows} {us : List MicroOp} {i : Instr} {s : State} {k : Nat}
    (hrun : RowsRun rows .stack [.imp] (fun _ => .opcode :: .dummyPC :: us)) (hright : RowsRight rows)
    (hlegal : RowsLegal rows) (hk : RowsTake rows k) (h : i.hasRow rows) :
    i.rowRight rows ∧ ∃ w, exec i s = .next (runOps us [] w) ∧
      RunsTo s w 1 2 s.view (readEvents (target s (s.pc + 1)) ++ readEvents (target s s.pc)) ∧
      ∀ v log, RunsTo s (runOps us [] w) 1 k v log → Completes i s (runOps us [] w) := by
  obtain ⟨hw, h0, hm, hc, hs⟩ := runs_of (p := s.profile.policy) hrun h (.inl hlegal)
  have hr := rowRight_of hright h
  have hmode : i.mode = .imp := List.mem_singleton.mp hm
  have hl : opLength i.opcode = 1 := by rw [opLength_mode h0, show (opInfo i.opcode).mode = .imp from hmode]; rfl
  have henc : encode i = [i.opcode] := by rw [encode_eq i hw, hl]; rfl
  obtain ⟨w, hrest, hwr⟩ := opcode_dummyPC_runsTo us i.opcode s
  refine ⟨hr, w, by rw [exec_eq i s hw, hs, henc, hrest], hwr, fun v log ht => ?_⟩
  exact ht.completes hrest.symm hl (baseCycles_of hk hr) (by simp only [extraCycles, hc])

/-- A push instruction writes its byte at the old S and lowers S, and changes nothing else (R24). -/
theorem MicroOp.Pushes.row {u : MicroOp} {val : View → Byte} (hu : u.Pushes val) {rows : Rows} {i : Instr} {s : State}
    (hrun : RowsRun rows .stack [.imp] (fun _ => [.opcode, .dummyPC, u])) (hright : RowsRight rows)
    (hlegal : RowsLegal rows) (hk : RowsTake rows 3) (hm : Memory.wf s.mem = true) (h : i.hasRow rows) :
    i.rowRight rows ∧ ∃ t, exec i s = .next t ∧ Completes i s t ∧
      t.view = { s.view with sp := s.sp - 1, cells := s.afterPush s.sp (val s.view) s.stored } ∧
      ∃ rest, t.portLog = writeEvents (target s (stackAddr s.sp)) (val s.view) ++ rest := by
  obtain ⟨hr, w, hexec, hw, hdone⟩ := stack_row (s := s) hrun hright hlegal hk h
  have hlast : runOps [u] [] w = cycle u [] none w := by rw [runOps_cons (hu.skipped w), supply_nil, runOps_nil]
  have hpush := push_runsTo (hu.access w) hu.act (hw.mem_wf hm) []
  have hsp : w.sp = s.sp := congrArg View.sp hw.view
  have hcells : w.stored = s.stored := congrArg View.cells hw.view
  have hpage : ∀ sp v cells, w.afterPush sp v cells = s.afterPush sp v cells := fun sp v cells => by
    funext a
    simp only [State.afterPush, State.afterStore, target_congr hw.profile]
  rw [hw.view, hsp, hcells, hpage, target_congr hw.profile] at hpush
  rw [hlast] at hexec hdone
  have ht := hw.trans hpush
  exact ⟨hr, _, hexec, hdone _ _ ht, ht.view, _, hpush.log⟩

/-- A pull instruction reads at S + 1 and raises S, after a dummy read at the old S (R24, R151). -/
theorem MicroOp.Pulls.row {u : MicroOp} {f : Byte → View → View} (hu : u.Pulls f) {rows : Rows} {i : Instr} {s : State}
    (hrun : RowsRun rows .stack [.imp] (fun _ => [.opcode, .dummyPC, .stackInc, u])) (hright : RowsRight rows)
    (hlegal : RowsLegal rows) (hk : RowsTake rows 4) (h : i.hasRow rows) :
    i.rowRight rows ∧ ∃ t, exec i s = .next t ∧ Completes i s t ∧
      (∀ v, s.stored (stackAddr (s.sp + 1)) = some v → t.busLatch = v) ∧
      t.portLog = readEvents (target s (stackAddr (s.sp + 1))) ++ readEvents (target s (stackAddr s.sp)) ++
        readEvents (target s (s.pc + 1)) ++ readEvents (target s s.pc) ++ s.portLog ∧
      t.view = f t.busLatch { s.view with sp := s.sp + 1 } := by
  obtain ⟨hr, w, hexec, hw, hdone⟩ := stack_row (s := s) hrun hright hlegal hk h
  obtain ⟨x, hx⟩ : ∃ x, x = cycle .stackInc [u] none w := ⟨_, rfl⟩
  have hlast : runOps [.stackInc, u] [] w = cycle u [] none x := by
    rw [runOps_cons rfl, supply_nil, rest_nil, ← hx, runOps_cons (hu.skipped x), supply_nil, runOps_nil]
  have hinc : RunsTo w x 0 1 { w.view with sp := w.sp + 1 } (readEvents (target w (stackAddr w.sp))) :=
    hx ▸ stackInc_runsTo [u] w
  have hsp : w.sp = s.sp := congrArg View.sp hw.view
  rw [hw.view, hsp, target_congr hw.profile] at hinc
  have hx2 := hw.trans hinc
  have hpull := hu.runsTo [] x
  have hxsp : x.sp = s.sp + 1 := congrArg View.sp hx2.view
  have hcells : x.stored = s.stored := congrArg View.cells hx2.view
  rw [hx2.view, hxsp, target_congr hx2.profile] at hpull
  have ht := hx2.trans hpull
  rw [hlast] at hexec hdone
  refine ⟨hr, _, hexec, hdone _ _ ht, fun v hv => ?_, ?_, ht.view⟩
  · exact read_busLatch (hu.access x) (by rw [hxsp, hcells]; exact hv) []
  · rw [ht.log]
    simp only [List.append_assoc]

/-! ### Pushes (R200, R201) -/

theorem rowsPha_run : RowsRun rowsPha .stack [.imp] (fun _ => phaOps) := by
  unfold RowsRun; decide

theorem rowsPhp_run : RowsRun rowsPhp .stack [.imp] (fun _ => phpOps) := by
  unfold RowsRun; decide

theorem rowsPha_take : RowsTake rowsPha 3 := by unfold RowsTake; decide
theorem rowsPhp_take : RowsTake rowsPhp 3 := by unfold RowsTake; decide

theorem pushA_pushes : MicroOp.pushA.Pushes View.a := ⟨fun _ => rfl, fun _ => rfl, fun _ _ => rfl⟩

/-- PHP pushes `Pbyte(1)` (R27, R201). -/
theorem pushPB_pushes : MicroOp.pushPB.Pushes (fun v => BitVec.ofNat 8 (v.pNat true)) :=
  ⟨fun _ => rfl, fun s => congrArg _ (pByte_eq_pNat true s), fun _ _ => rfl⟩

/-- Settles O31: the push that each instruction ends with. -/
theorem pushesWriteAtTheStackPointer : Obligations.PushesWriteAtTheStackPointer := by
  intro i s hm
  refine ⟨pushA_pushes.row rowsPha_run rowsPha_right rowsPha_legal rowsPha_take hm, fun h => ?_⟩
  obtain ⟨hr, t, ht, hc, hv, _⟩ := pushPB_pushes.row rowsPhp_run rowsPhp_right rowsPhp_legal rowsPhp_take hm h
  exact ⟨hr, t, ht, hc, hv⟩

/-! ### Pulls (R202, R203) -/

theorem rowsPla_run : RowsRun rowsPla .stack [.imp] (fun _ => plaOps) := by
  unfold RowsRun; decide

theorem rowsPlp_run : RowsRun rowsPlp .stack [.imp] (fun _ => plpOps) := by
  unfold RowsRun; decide

theorem rowsPla_take : RowsTake rowsPla 4 := by unfold RowsTake; decide
theorem rowsPlp_take : RowsTake rowsPlp 4 := by unfold RowsTake; decide

/-- PLA loads A and sets N and Z (R202). -/
theorem pullA_pulls : MicroOp.pullA.Pulls (fun d v => { v with a := d }.nz d) :=
  ⟨fun _ => rfl, rfl, fun _ => rfl, fun _ _ => rfl, fun _ _ => rfl⟩

/-- PLP loads the six flags and drops bits 5 and 4 (R28, R203). -/
theorem pullP_pulls : MicroOp.pullP.Pulls View.loadP :=
  ⟨fun _ => rfl, rfl, fun _ => rfl, fun _ _ => rfl, fun _ _ => rfl⟩

/-- Settles O32: the pull that each instruction ends with. -/
theorem pullsReadAboveTheStackPointer : Obligations.PullsReadAboveTheStackPointer := by
  intro i s
  exact ⟨pullA_pulls.row rowsPla_run rowsPla_right rowsPla_legal rowsPla_take,
    pullP_pulls.row rowsPlp_run rowsPlp_right rowsPlp_legal rowsPlp_take⟩

end Sys2Proof.Machine
end

section
/-! The arithmetic of the ALU (43_alu.md R220 to R223): the model's words as the numbers of the rules. -/

namespace Sys2Proof.Machine

/-! ### Carries -/

theorem toNat_eq_flagNat (c : Bool) : c.toNat = flagNat c := by cases c <;> rfl

theorem flagNat_le_one (c : Bool) : flagNat c ≤ 1 := by cases c <;> decide

theorem bitByte_toNat (c : Bool) : (bitByte c).toNat = flagNat c := by cases c <;> rfl

/-! ### Steps by one (R233 to R238) -/

theorem add_one_eq (v : Byte) : v + 1 = BitVec.ofNat 8 (v.toNat + 1) := by bv_omega

theorem sub_one_eq (v : Byte) : v - 1 = BitVec.ofNat 8 (v.toNat + 255) := by bv_omega

/-! ### Addition (R220) -/

/-- The model's sum is the rule's `r`. -/
theorem adcSum_eq (a m : Byte) (c : Bool) : adcSum a m c = a.toNat + m.toNat + flagNat c := by
  rw [adcSum, toNat_eq_flagNat]

theorem adcResult_eq (a m : Byte) (c : Bool) :
    adcResult a m c = BitVec.ofNat 8 (a.toNat + m.toNat + flagNat c) := by rw [adcResult, adcSum_eq]

theorem adcCarry_eq (a m : Byte) (c : Bool) :
    adcCarry a m c = decide (255 < a.toNat + m.toNat + flagNat c) := by rw [adcCarry, adcSum_eq]

/-- The mask `$80` tests the sign bit. -/
theorem and_signBit_ne_zero (v : Byte) : v &&& 0x80 ≠ 0 ↔ v.msb = true := by
  rw [show (0x80 : Byte) = BitVec.twoPow 8 7 from rfl, BitVec.and_twoPow, BitVec.msb_eq_getLsbD_last]
  by_cases h : v.getLsbD 7 = true <;> simp [h]

/-- V: the operands have one sign and the result the other (R220). -/
theorem adcOverflow_eq (a m : Byte) (c : Bool) :
    adcOverflow a m c = decide (a.msb = m.msb ∧ (adcResult a m c).msb ≠ a.msb) := by
  rw [adcOverflow, decide_eq_decide, and_signBit_ne_zero, BitVec.msb_and, BitVec.msb_xor, BitVec.msb_xor]
  generalize a.msb = p, m.msb = q, (adcResult a m c).msb = r
  revert p q r
  decide

/-- V as the signed sum out of range: what the signs say of it (R220). -/
theorem adcOverflow_eq_toInt (a m : Byte) (c : Bool) :
    adcOverflow a m c = decide (a.toInt + m.toInt + flagNat c < -128 ∨ 127 < a.toInt + m.toInt + flagNat c) := by
  have hc := flagNat_le_one c
  have ha := a.isLt
  have hm := m.isLt
  rw [adcOverflow_eq, adcResult_eq, decide_eq_decide]
  simp only [BitVec.msb_eq_decide, BitVec.toInt_eq_toNat_cond, BitVec.toNat_ofNat, ne_eq, decide_eq_decide]
  omega

/-! ### Subtraction (R221) -/

theorem xor_ones_toNat (m : Byte) : (m ^^^ 0xFF).toNat = 255 - m.toNat := by
  rw [show (0xFF : Byte) = BitVec.allOnes 8 from rfl, BitVec.xor_allOnes, BitVec.toNat_not]

theorem xor_ones_toInt (m : Byte) : (m ^^^ 0xFF).toInt = -1 - m.toInt := by
  rw [show (0xFF : Byte) = BitVec.allOnes 8 from rfl, BitVec.xor_allOnes]
  have hm := m.isLt
  simp only [BitVec.toInt_eq_toNat_cond, BitVec.toNat_not]
  omega

/-- The sum with the complement is the difference with the borrow, 256 more (R221). -/
theorem adcResult_complement (a m : Byte) (c : Bool) :
    adcResult a (m ^^^ 0xFF) c = BitVec.ofInt 8 ((a.toNat : Int) - m.toNat - (1 - flagNat c)) := by
  have hm := m.isLt
  rw [adcResult_eq, xor_ones_toNat]
  apply BitVec.eq_of_toNat_eq
  rw [BitVec.toNat_ofNat, BitVec.toNat_ofInt]
  omega

/-- The sum with the complement carries out where the difference does not borrow (R221). -/
theorem adcCarry_complement (a m : Byte) (c : Bool) :
    adcCarry a (m ^^^ 0xFF) c = decide (m.toNat + (1 - flagNat c) ≤ a.toNat) := by
  have hm := m.isLt
  have hc := flagNat_le_one c
  rw [adcCarry_eq, xor_ones_toNat, decide_eq_decide]
  omega

/-- The signed sum with the complement is the signed difference (R221). -/
theorem adcOverflow_complement (a m : Byte) (c : Bool) :
    adcOverflow a (m ^^^ 0xFF) c =
      decide (a.toInt - m.toInt - (1 - flagNat c) < -128 ∨ 127 < a.toInt - m.toInt - (1 - flagNat c)) := by
  rw [adcOverflow_eq_toInt, xor_ones_toInt, decide_eq_decide]
  omega

/-! ### Sums and differences in the view -/

/-- `A <- adc(A, m, C)` with its flags, as R220 says it. -/
def View.adc (m : Byte) (v : View) : View :=
  { v with
    a := BitVec.ofNat 8 (v.a.toNat + m.toNat + flagNat v.fC)
    fC := decide (255 < v.a.toNat + m.toNat + flagNat v.fC)
    fV := decide (v.a.msb = m.msb ∧ (BitVec.ofNat 8 (v.a.toNat + m.toNat + flagNat v.fC)).msb ≠ v.a.msb) }.nz
    (BitVec.ofNat 8 (v.a.toNat + m.toNat + flagNat v.fC))

/-- `A <- sbc(A, m, C)` with its flags, as R221 says it. -/
def View.sbc (m : Byte) (v : View) : View :=
  { v with
    a := BitVec.ofInt 8 ((v.a.toNat : Int) - m.toNat - (1 - flagNat v.fC))
    fC := decide (m.toNat + (1 - flagNat v.fC) ≤ v.a.toNat)
    fV := decide (v.a.toInt - m.toInt - (1 - flagNat v.fC) < -128 ∨
      127 < v.a.toInt - m.toInt - (1 - flagNat v.fC)) }.nz
    (BitVec.ofInt 8 ((v.a.toNat : Int) - m.toNat - (1 - flagNat v.fC)))

/-- The model's addition, in the view. -/
theorem adcIntoA_view (m : Byte) (s : State) : (adcIntoA m s).view = s.view.adc m := by
  rw [View.adc, ← adcResult_eq, ← adcCarry_eq, ← adcOverflow_eq]
  rfl

/-- The model's subtraction, in the view. -/
theorem sbcIntoA_view (m : Byte) (s : State) : (sbcIntoA m s).view = s.view.sbc m := by
  rw [View.sbc, ← adcResult_complement, ← adcCarry_complement, ← adcOverflow_complement]
  rfl

/-! ### Shifts and rotations (R223) -/

theorem aslResult_eq (v : Byte) : aslResult v = BitVec.ofNat 8 (2 * v.toNat) := by
  apply BitVec.eq_of_toNat_eq
  rw [aslResult, BitVec.toNat_shiftLeft, BitVec.toNat_ofNat, Nat.shiftLeft_eq, Nat.pow_one, Nat.mul_comm]

theorem lsrResult_eq (v : Byte) : lsrResult v = BitVec.ofNat 8 (v.toNat / 2) := by
  apply BitVec.eq_of_toNat_eq
  have hv := v.isLt
  rw [lsrResult, BitVec.toNat_ushiftRight, BitVec.toNat_ofNat, Nat.shiftRight_eq_div_pow]
  omega

/-- A flag placed on a clear bit meets no other. -/
theorem and_bitByte_eq_zero {w : Byte} {k : Nat} (hk : w.getLsbD k = false) (c : Bool) :
    w &&& bitByte c <<< k = 0 := by
  cases c
  · simp [bitByte]
  · rw [show bitByte true <<< k = BitVec.twoPow 8 k from rfl, BitVec.and_twoPow, hk]
    rfl

/-- The old C enters at bit 0, which the shift left clear. -/
theorem rolResult_eq (v : Byte) (c : Bool) : rolResult v c = BitVec.ofNat 8 (2 * v.toNat + flagNat c) := by
  have hclear : v <<< 1 &&& bitByte c = 0 := by
    simpa using and_bitByte_eq_zero (w := v <<< 1) (k := 0) (by simp) c
  rw [rolResult, ← BitVec.add_eq_or_of_and_eq_zero _ _ hclear, BitVec.ofNat_add, ← aslResult_eq, aslResult,
    ← bitByte_toNat, BitVec.ofNat_toNat, BitVec.setWidth_eq]

/-- The old C enters at bit 7, which the shift left clear. -/
theorem rorResult_eq (v : Byte) (c : Bool) : rorResult v c = BitVec.ofNat 8 (v.toNat / 2 + 128 * flagNat c) := by
  have hclear : v >>> 1 &&& bitByte c <<< 7 = 0 := and_bitByte_eq_zero (by simp) c
  have htop : bitByte c <<< 7 = BitVec.ofNat 8 (128 * flagNat c) := by cases c <;> rfl
  rw [rorResult, ← BitVec.add_eq_or_of_and_eq_zero _ _ hclear, BitVec.ofNat_add, ← lsrResult_eq, lsrResult, htop]

end Sys2Proof.Machine
end

section
/-! Arithmetic, logic, compares, steps and shifts (43_alu.md): what the operation of each does to the programmer's view, and
the classes of 40_sequencer.md run with it. -/

namespace Sys2Proof.Machine

/-! ### Operations that change the view alone, from a row -/

/-- A read-modify-write operation with operand M does `w M` to the registers and flags, whatever the rest of the state. -/
def RmwOp.Acts (op : RmwOp) (w : Byte → View → View) : Prop := ∀ m s, (op.apply m s).view = w m s.view

/-- An instruction of the read-modify-write class stores the result at its operand, and does to the registers and flags what
its operation does with M (R73, R122). -/
theorem RmwOp.Acts.runs {op : RmwOp} {w : Byte → View → View} (hop : op.Acts w) {rows : Rows} {i : Instr} {s : State}
    (hrun : RowsRun rows .rmw modifyModes (fun m => addrWrite m ++ rmwTail op))
    (hl : RowsLegal rows ∨ s.profile.policy = .emulate) (hmem : Memory.wf s.mem = true) (h : i.hasRow rows) :
    ∃ t, exec i s = .next t ∧ Completes i s t ∧ OperandModified i s t ∧ t.busLatch = op.result t.dl s ∧
      t.view = { w t.dl s.view with cells := s.afterStore t.ad t.busLatch s.stored } := by
  obtain ⟨t, f, ht, hc, ho, hb, hv⟩ := modify_row hrun h hl hmem
  exact ⟨t, ht, hc, ho, hb, by rw [hv, hop, withFree_view]⟩

/-- An instruction of the implied or accumulator class does to the view what its operation does (R124). -/
theorem ImpliedOp.Acts.runs {op : ImpliedOp} {w : View → View} (hop : op.Acts w) {rows : Rows} {i : Instr} {s : State}
    {modes : List Mode} (hrun : RowsRun rows .implied modes (fun _ => impliedOps op))
    (hmodes : ∀ m ∈ modes, m ∈ ([.imp, .acc] : List Mode)) (hl : RowsLegal rows ∨ s.profile.policy = .emulate)
    (h : i.hasRow rows) : ∃ t, exec i s = .next t ∧ Completes i s t ∧ t.view = w s.view := by
  obtain ⟨t, f, ht, hc, _, hv⟩ := implied_row hrun hmodes h hl
  exact ⟨t, ht, hc, by rw [hv, hop, withFree_view]⟩

/-- Under `emulate` an instruction of the read class, documented or not, does to the view what its operation does with M
(R122). -/
theorem ReadOp.Acts.row_emulate {op : ReadOp} {w : Byte → View → View} (hop : op.Acts w) {rows : Rows} {i : Instr}
    {s : State} (hrun : RowsRun rows .read readModes (fun m => readSeq m op)) (hright : RowsRight rows)
    (hp : s.profile.policy = .emulate) (h : i.hasRow rows) :
    i.rowRight rows ∧ ∃ t, exec i s = .next t ∧ Completes i s t ∧ OperandRead i s t ∧
      t.view = w t.busLatch s.view := by
  obtain ⟨hr, t, f, ht, hc, ho, hv⟩ := read_row hrun hright h (.inr hp)
  exact ⟨hr, t, ht, hc, ho, by rw [hv, hop, withFree_view]⟩

/-! ### Addition and subtraction (R224, R225, R336) -/

theorem adc_acts : ReadOp.adc.Acts View.adc := adcIntoA_view

theorem sbc_acts : ReadOp.sbc.Acts View.sbc := sbcIntoA_view

theorem usbc_acts : ReadOp.usbc.Acts View.sbc := sbcIntoA_view

/-- Settles O33: the read class, with the model's sum as the rule's. -/
theorem adcAddsWithCarry : Obligations.AdcAddsWithCarry := by
  intro i s h
  exact adc_acts.row rowsAdc_run rowsAdc_right rowsAdc_legal h

/-- Settles O34: the read class, with the sum with the complement as the rule's difference. -/
theorem sbcSubtractsWithBorrow : Obligations.SbcSubtractsWithBorrow := by
  rintro i s (h | ⟨h, hp⟩)
  · obtain ⟨hr, ht⟩ := sbc_acts.row (s := s) rowsSbc_run rowsSbc_right rowsSbc_legal h
    exact ⟨.inl hr, ht⟩
  · obtain ⟨hr, ht⟩ := usbc_acts.row_emulate rowsUsbc_run rowsUsbc_right hp h
    exact ⟨.inr hr, ht⟩

/-! ### Logic (R226 to R228) -/

theorem and_acts : ReadOp.and.Acts (fun m v => { v with a := v.a &&& m }.nz (v.a &&& m)) := fun _ _ => rfl

theorem ora_acts : ReadOp.ora.Acts (fun m v => { v with a := v.a ||| m }.nz (v.a ||| m)) := fun _ _ => rfl

theorem eor_acts : ReadOp.eor.Acts (fun m v => { v with a := v.a ^^^ m }.nz (v.a ^^^ m)) := fun _ _ => rfl

/-- Settles O35: the read class, with the operation of each. -/
theorem logicCombinesWithA : Obligations.LogicCombinesWithA := by
  intro i s
  exact ⟨and_acts.row rowsAnd_run rowsAnd_right rowsAnd_legal,
    ora_acts.row rowsOra_run rowsOra_right rowsOra_legal,
    eor_acts.row rowsEor_run rowsEor_right rowsEor_legal⟩

/-! ### Compares (R229 to R231) -/

/-- `compare(reg, m)` (R222). -/
def View.compare (reg m : Byte) (v : View) : View :=
  { v with fC := decide (m.toNat ≤ reg.toNat), fZ := decide (reg = m), fN := (reg - m).msb }

theorem cmp_acts : ReadOp.cmp.Acts (fun m v => v.compare v.a m) := fun _ _ => rfl

theorem cpx_acts : ReadOp.cpx.Acts (fun m v => v.compare v.x m) := fun _ _ => rfl

theorem cpy_acts : ReadOp.cpy.Acts (fun m v => v.compare v.y m) := fun _ _ => rfl

/-- Settles O36: the read class, with the register that each compares. -/
theorem comparesSetCzn : Obligations.ComparesSetCzn := by
  intro i s
  exact ⟨cmp_acts.row rowsCmp_run rowsCmp_right rowsCmp_legal,
    cpx_acts.row rowsCpx_run rowsCpx_right rowsCpx_legal,
    cpy_acts.row rowsCpy_run rowsCpy_right rowsCpy_legal⟩

/-! ### BIT (R232) -/

theorem bit_acts : ReadOp.bit.Acts (fun m v =>
    { v with fZ := decide (v.a &&& m = 0), fN := m.getLsbD 7, fV := m.getLsbD 6 }) := fun _ _ => rfl

/-- Settles O37: the read class, with BIT's flags. -/
theorem bitTestsMemory : Obligations.BitTestsMemory := by
  intro i s h
  exact bit_acts.row rowsBit_run rowsBit_right rowsBit_legal h

/-! ### Steps of memory (R233, R234) -/

theorem inc_acts : RmwOp.inc.Acts (fun m v => v.nz (m + 1)) := fun _ _ => rfl

theorem dec_acts : RmwOp.dec.Acts (fun m v => v.nz (m - 1)) := fun _ _ => rfl

/-- A read-modify-write operation whose N and Z follow the byte it writes back, the rest kept: R233 and R234 are of this
form. -/
theorem RmwOp.Acts.step_row {op : RmwOp} {f : Byte → Byte} (hop : op.Acts (fun m v => v.nz (f m)))
    (hf : ∀ m s, op.result m s = f m) {rows : Rows} {i : Instr} {s : State}
    (hrun : RowsRun rows .rmw modifyModes (fun m => addrWrite m ++ rmwTail op)) (hright : RowsRight rows)
    (hlegal : RowsLegal rows) (hmem : Memory.wf s.mem = true) (h : i.hasRow rows) :
    i.rowRight rows ∧ ∃ t, exec i s = .next t ∧ Completes i s t ∧ OperandModified i s t ∧ t.busLatch = f t.dl ∧
      t.view = { s.view with cells := s.afterStore t.ad t.busLatch s.stored }.nz t.busLatch := by
  obtain ⟨t, ht, hc, ho, hb, hv⟩ := hop.runs hrun (.inl hlegal) hmem h
  rw [hf] at hb
  exact ⟨rowRight_of hright h, t, ht, hc, ho, hb, by rw [hv, hb]; rfl⟩

/-- Settles O38: the read-modify-write class, with the step of each. -/
theorem incDecMemory : Obligations.IncDecMemory := by
  intro i s hmem
  simp only [← add_one_eq, ← sub_one_eq]
  exact ⟨inc_acts.step_row (fun _ _ => rfl) rowsInc_run rowsInc_right rowsInc_legal hmem,
    dec_acts.step_row (fun _ _ => rfl) rowsDec_run rowsDec_right rowsDec_legal hmem⟩

/-! ### Steps of registers (R235 to R238) -/

theorem inx_acts : ImpliedOp.inx.Acts (fun v => { v with x := v.x + 1 }.nz (v.x + 1)) := fun _ => rfl

theorem iny_acts : ImpliedOp.iny.Acts (fun v => { v with y := v.y + 1 }.nz (v.y + 1)) := fun _ => rfl

theorem dex_acts : ImpliedOp.dex.Acts (fun v => { v with x := v.x - 1 }.nz (v.x - 1)) := fun _ => rfl

theorem dey_acts : ImpliedOp.dey.Acts (fun v => { v with y := v.y - 1 }.nz (v.y - 1)) := fun _ => rfl

/-- Settles O39: the implied class, with the step of each. -/
theorem incDecRegisters : Obligations.IncDecRegisters := by
  intro i s
  simp only [← add_one_eq, ← sub_one_eq]
  exact ⟨fun h => ⟨rowRight_of rowsInx_right h, inx_acts.runs rowsInx_run (by simp) (.inl rowsInx_legal) h⟩,
    fun h => ⟨rowRight_of rowsIny_right h, iny_acts.runs rowsIny_run (by simp) (.inl rowsIny_legal) h⟩,
    fun h => ⟨rowRight_of rowsDex_right h, dex_acts.runs rowsDex_run (by simp) (.inl rowsDex_legal) h⟩,
    fun h => ⟨rowRight_of rowsDey_right h, dey_acts.runs rowsDey_run (by simp) (.inl rowsDey_legal) h⟩⟩

/-! ### Shifts and rotations (R239 to R242) -/

/-- An instruction of the rows is one of the first `n`, or one of the others. -/
theorem hasRow_take_or_drop (n : Nat) {rows : Rows} {i : Instr} (h : i.hasRow rows) :
    i.hasRow (rows.take n) ∨ i.hasRow (rows.drop n) := by
  obtain ⟨hw, r, hr, hop⟩ := h
  rw [← List.take_append_drop n rows, List.mem_append] at hr
  exact hr.imp (fun hr => ⟨hw, r, hr, hop⟩) (fun hr => ⟨hw, r, hr, hop⟩)

theorem RowsLegal.take {rows : Rows} (h : RowsLegal rows) (n : Nat) : RowsLegal (rows.take n) :=
  fun r hr => h r (List.mem_of_mem_take hr)

theorem RowsLegal.drop {rows : Rows} (h : RowsLegal rows) (n : Nat) : RowsLegal (rows.drop n) :=
  fun r hr => h r (List.mem_of_mem_drop hr)

/-- The rows of a shift or rotation, on A in the first of them and on memory in the others: with the carry `c` and the
operand `v` its result is `result c v`, and it shifts `out v` out into C (R223). -/
structure Shifts (rows : Rows) (accOp : ImpliedOp) (memOp : RmwOp) (result : Bool → Byte → Byte)
    (out : Byte → Bool) : Prop where
  acc    : accOp.Acts (fun v => { v with a := result v.fC v.a, fC := out v.a }.nz (result v.fC v.a))
  mem    : memOp.Acts (fun m v => { v with fC := out m }.nz (result v.fC m))
  stored : ∀ m s, memOp.result m s = result s.fC m
  accRun : RowsRun (rows.take 1) .implied [.acc] (fun _ => impliedOps accOp)
  memRun : RowsRun (rows.drop 1) .rmw modifyModes (fun m => addrWrite m ++ rmwTail memOp)
  right  : RowsRight rows
  legal  : RowsLegal rows

section
variable {rows : Rows} {accOp : ImpliedOp} {memOp : RmwOp} {result : Bool → Byte → Byte} {out : Byte → Bool}

/-- A shift or rotation of A. -/
theorem Shifts.acc_row (hs : Shifts rows accOp memOp result out) {i : Instr} (s : State) (h : i.hasRow (rows.take 1)) :
    i.mode = .acc ∧ ∃ t, exec i s = .next t ∧ Completes i s t ∧
      t.view = { s.view with a := result s.fC s.a, fC := out s.a }.nz (result s.fC s.a) := by
  obtain ⟨-, -, hmode, -, -⟩ := runs_of (p := s.profile.policy) hs.accRun h (.inl (hs.legal.take 1))
  exact ⟨List.mem_singleton.mp hmode, hs.acc.runs hs.accRun (by simp) (.inl (hs.legal.take 1)) h⟩

/-- A shift or rotation of memory. -/
theorem Shifts.mem_row (hs : Shifts rows accOp memOp result out) {i : Instr} {s : State}
    (hmem : Memory.wf s.mem = true) (h : i.hasRow (rows.drop 1)) :
    i.mode ≠ .acc ∧ ∃ t, exec i s = .next t ∧ Completes i s t ∧ OperandModified i s t ∧
      t.busLatch = result s.fC t.dl ∧
      t.view = { s.view with fC := out t.dl, cells := s.afterStore t.ad t.busLatch s.stored }.nz t.busLatch := by
  obtain ⟨-, -, hmode, -, -⟩ := runs_of (p := s.profile.policy) hs.memRun h (.inl (hs.legal.drop 1))
  obtain ⟨t, ht, hc, ho, hb, hv⟩ := hs.mem.runs hs.memRun (.inl (hs.legal.drop 1)) hmem h
  rw [hs.stored] at hb
  have hacc : i.mode ≠ .acc := fun he => absurd (he ▸ hmode) (by decide)
  exact ⟨hacc, t, ht, hc, ho, hb, by rw [hv, hb]; rfl⟩

/-- A shift or rotation, on A or on memory. -/
theorem Shifts.row (hs : Shifts rows accOp memOp result out) {i : Instr} {s : State} (hmem : Memory.wf s.mem = true)
    (h : i.hasRow rows) :
    i.rowRight rows ∧ ∃ t, exec i s = .next t ∧ Completes i s t ∧
      (i.mode = .acc → t.view = { s.view with a := result s.fC s.a, fC := out s.a }.nz (result s.fC s.a)) ∧
      (i.mode ≠ .acc → OperandModified i s t ∧ t.busLatch = result s.fC t.dl ∧
        t.view =
          { s.view with fC := out t.dl, cells := s.afterStore t.ad t.busLatch s.stored }.nz t.busLatch) := by
  refine ⟨rowRight_of hs.right h, ?_⟩
  rcases hasRow_take_or_drop 1 h with h | h
  · obtain ⟨hmode, t, ht, hc, hv⟩ := hs.acc_row s h
    exact ⟨t, ht, hc, fun _ => hv, fun hne => absurd hmode hne⟩
  · obtain ⟨hmode, t, ht, hc, hrest⟩ := hs.mem_row hmem h
    exact ⟨t, ht, hc, fun he => absurd he hmode, fun _ => hrest⟩

end

/-- ASL doubles, and bit 7 goes to C (R239). -/
theorem asl_shifts : Shifts rowsAsl .aslA .asl (fun _ v => BitVec.ofNat 8 (2 * v.toNat)) (fun v => v.getLsbD 7) where
  acc _ := by simp only [← aslResult_eq]; rfl
  mem _ _ := by simp only [← aslResult_eq]; rfl
  stored m _ := aslResult_eq m
  accRun := rowsAsl_acc_run
  memRun := rowsAsl_memory_run
  right := rowsAsl_right
  legal := rowsAsl_legal

/-- LSR halves, and bit 0 goes to C (R240). -/
theorem lsr_shifts : Shifts rowsLsr .lsrA .lsr (fun _ v => BitVec.ofNat 8 (v.toNat / 2)) (fun v => v.getLsbD 0) where
  acc _ := by simp only [← lsrResult_eq]; rfl
  mem _ _ := by simp only [← lsrResult_eq]; rfl
  stored m _ := lsrResult_eq m
  accRun := rowsLsr_acc_run
  memRun := rowsLsr_memory_run
  right := rowsLsr_right
  legal := rowsLsr_legal

/-- ROL doubles and takes C in at bit 0, and bit 7 goes to C (R241). -/
theorem rol_shifts :
    Shifts rowsRol .rolA .rol (fun c v => BitVec.ofNat 8 (2 * v.toNat + flagNat c)) (fun v => v.getLsbD 7) where
  acc _ := by simp only [← rolResult_eq]; rfl
  mem _ _ := by simp only [← rolResult_eq]; rfl
  stored m s := rolResult_eq m s.fC
  accRun := rowsRol_acc_run
  memRun := rowsRol_memory_run
  right := rowsRol_right
  legal := rowsRol_legal

/-- ROR halves and takes C in at bit 7, and bit 0 goes to C (R242). -/
theorem ror_shifts :
    Shifts rowsRor .rorA .ror (fun c v => BitVec.ofNat 8 (v.toNat / 2 + 128 * flagNat c)) (fun v => v.getLsbD 0) where
  acc _ := by simp only [← rorResult_eq]; rfl
  mem _ _ := by simp only [← rorResult_eq]; rfl
  stored m s := rorResult_eq m s.fC
  accRun := rowsRor_acc_run
  memRun := rowsRor_memory_run
  right := rowsRor_right
  legal := rowsRor_legal

/-- Settles O40: the accumulator and the read-modify-write class, with the result of each shift. -/
theorem shiftsAndRotates : Obligations.ShiftsAndRotates := by
  rintro i s rows result out hmem
    (⟨rfl, rfl, rfl⟩ | ⟨rfl, rfl, rfl⟩ | ⟨rfl, rfl, rfl⟩ | ⟨rfl, rfl, rfl⟩) h
  · exact asl_shifts.row hmem h
  · exact lsr_shifts.row hmem h
  · exact rol_shifts.row hmem h
  · exact ror_shifts.row hmem h

end Sys2Proof.Machine
end

section
/-! The flag instructions and the NOPs (44_control.md R284 to R291, 45_undocumented.md R323): what the operation of each does to
the programmer's view, and the classes of 40_sequencer.md run with it. -/

namespace Sys2Proof.Machine

/-! ### The flag instructions (R284 to R290) -/

theorem clc_acts : ImpliedOp.clc.Acts (fun v => { v with fC := false }) := fun _ => rfl

theorem sec_acts : ImpliedOp.sec.Acts (fun v => { v with fC := true }) := fun _ => rfl

theorem cli_acts : ImpliedOp.cli.Acts (fun v => { v with fI := false }) := fun _ => rfl

theorem sei_acts : ImpliedOp.sei.Acts (fun v => { v with fI := true }) := fun _ => rfl

theorem clv_acts : ImpliedOp.clv.Acts (fun v => { v with fV := false }) := fun _ => rfl

theorem cld_acts : ImpliedOp.cld.Acts (fun v => { v with fD := false }) := fun _ => rfl

theorem sed_acts : ImpliedOp.sed.Acts (fun v => { v with fD := true }) := fun _ => rfl

/-- A documented instruction in the implied mode does to the view what its operation does, its dummy read aside (R124). -/
theorem ImpliedOp.Acts.flag_row {op : ImpliedOp} {f : View → View} (hop : op.Acts f) {rows : Rows} {i : Instr} {s : State}
    (hrun : RowsRun rows .implied [.imp] (fun _ => impliedOps op)) (hright : RowsRight rows) (hlegal : RowsLegal rows)
    (h : i.hasRow rows) : i.rowRight rows ∧ ∃ t, exec i s = .next t ∧ Completes i s t ∧ t.view = f s.view := by
  obtain ⟨hr, t, ht, hc, _, hv⟩ := hop.row (s := s) hrun hright hlegal h
  exact ⟨hr, t, ht, hc, hv⟩

/-- Settles O45: the implied class, with the flag that each instruction writes. -/
theorem flagInstructionsWriteOneFlag : Obligations.FlagInstructionsWriteOneFlag := by
  intro i s rows w hmem h
  simp only [List.mem_cons, List.not_mem_nil, or_false, Prod.mk.injEq] at hmem
  rcases hmem with ⟨rfl, rfl⟩ | ⟨rfl, rfl⟩ | ⟨rfl, rfl⟩ | ⟨rfl, rfl⟩ | ⟨rfl, rfl⟩ | ⟨rfl, rfl⟩ | ⟨rfl, rfl⟩
  · exact clc_acts.flag_row rowsClc_run rowsClc_right rowsClc_legal h
  · exact sec_acts.flag_row rowsSec_run rowsSec_right rowsSec_legal h
  · exact cli_acts.flag_row rowsCli_run rowsCli_right rowsCli_legal h
  · exact sei_acts.flag_row rowsSei_run rowsSei_right rowsSei_legal h
  · exact clv_acts.flag_row rowsClv_run rowsClv_right rowsClv_legal h
  · exact cld_acts.flag_row rowsCld_run rowsCld_right rowsCld_legal h
  · exact sed_acts.flag_row rowsSed_run rowsSed_right rowsSed_legal h

/-! ### The NOPs (R291, R323) -/

theorem nop_acts : ImpliedOp.nop.Acts id := fun _ => rfl

theorem readNop_acts : ReadOp.nop.Acts (fun _ v => v) := fun _ _ => rfl

/-- An undocumented NOP in the implied mode makes the dummy read of the byte after it, and changes nothing (R124, R323). -/
theorem undocNop_implied_row {i : Instr} {s : State} (hp : s.profile.policy = .emulate)
    (h : i.hasRow (rowsUndocNop.take 6)) :
    i.mode = .imp ∧ ∃ t, exec i s = .next t ∧ Completes i s t ∧ t.view = s.view ∧
      t.portLog = readEvents (target s (s.pc + 1)) ++ readEvents (target s s.pc) ++ s.portLog := by
  obtain ⟨_, _, hmode, _⟩ := runs_of (p := s.profile.policy) rowsUndocNop_implied_run h (.inr hp)
  obtain ⟨t, f, ht, hc, hlog, hv⟩ := implied_row rowsUndocNop_implied_run (by simp) h (.inr hp)
  exact ⟨List.mem_singleton.mp hmode, t, ht, hc, by rw [hv, nop_acts, withFree_view, id], hlog⟩

/-- An undocumented NOP with an operand reads it, and changes nothing (R122, R323). -/
theorem undocNop_read_row {i : Instr} {s : State} (hp : s.profile.policy = .emulate)
    (h : i.hasRow (rowsUndocNop.drop 6)) :
    i.mode ≠ .imp ∧ ∃ t, exec i s = .next t ∧ Completes i s t ∧ t.view = s.view ∧ OperandRead i s t := by
  obtain ⟨hw, h0, hmode, hc, hs⟩ := runs_of (p := s.profile.policy) rowsUndocNop_read_run h (.inr hp)
  obtain ⟨t, f, ht, hdone, hread, hv⟩ := read_class i s .nop hw h0 hmode hc hs
  refine ⟨fun himp => ?_, t, ht, hdone, by rw [hv, readNop_acts, withFree_view], hread⟩
  rw [himp] at hmode
  exact absurd hmode (by decide)

/-- Settles O46: the implied class, and for a NOP with an operand the read class, with an operation that does nothing. -/
theorem nopsChangeNothing : Obligations.NopsChangeNothing := by
  refine fun i s => ⟨fun h => ?_, fun h hp => ⟨rowRight_of rowsUndocNop_right h, ?_⟩⟩
  · obtain ⟨hr, t, ht, hc, hlog, hv⟩ := nop_acts.row (s := s) rowsNop_run rowsNop_right rowsNop_legal h
    exact ⟨hr, t, ht, hc, hv, hlog⟩
  · rcases hasRow_take_or_drop 6 h with h | h
    · obtain ⟨himp, t, ht, hc, hv, hlog⟩ := undocNop_implied_row hp h
      exact ⟨t, ht, hc, hv, fun hne => absurd himp hne, fun _ => hlog⟩
    · obtain ⟨hne, t, ht, hc, hv, hread⟩ := undocNop_read_row hp h
      exact ⟨t, ht, hc, hv, fun _ => hread, fun himp => absurd himp hne⟩

end Sys2Proof.Machine
end

section
/-! JSR and the returns (40_sequencer.md R147 to R149, 44_control.md R271 to R273): runs of cycles extended by one read, one
push or one cycle that sets PC alone. -/

namespace Sys2Proof.Machine

/-! ### Runs of cycles, one cycle longer -/

/-- The register actions of a read cycle step PC on by `m` and do `f d` to the view with the byte `d` delivered. -/
structure MicroOp.Reads (u : MicroOp) (m : Nat) (f : Byte → View → View) : Prop where
  jam  : u ≠ .opcodeJam
  trap : u ≠ .opcodeTrap
  pc   : ∀ d r, (u.act d r).pc = r.pc + BitVec.ofNat 16 m
  view : ∀ d r, (u.act d r).view = f d r.view

theorem opcode_reads : MicroOp.opcode.Reads 1 (fun _ v => v) :=
  ⟨by decide, by decide, fun _ _ => rfl, fun _ _ => rfl⟩

theorem argLo_reads : MicroOp.argLo.Reads 1 (fun _ v => v) :=
  ⟨by decide, by decide, fun _ _ => rfl, fun _ _ => rfl⟩

theorem stackDummy_reads : MicroOp.stackDummy.Reads 0 (fun _ v => v) :=
  ⟨by decide, by decide, fun _ _ => (BitVec.add_zero _).symm, fun _ _ => rfl⟩

theorem stackInc_reads : MicroOp.stackInc.Reads 0 (fun _ v => { v with sp := v.sp + 1 }) :=
  ⟨by decide, by decide, fun _ _ => (BitVec.add_zero _).symm, fun _ _ => rfl⟩

theorem pullLo_reads : MicroOp.pullLo.Reads 0 (fun _ v => { v with sp := v.sp + 1 }) :=
  ⟨by decide, by decide, fun _ _ => (BitVec.add_zero _).symm, fun _ _ => rfl⟩

/-- RTI's pull of P loads the six flags (R28, R149). -/
theorem pullPInc_reads : MicroOp.pullPInc.Reads 0 (fun d v => { v with sp := v.sp + 1 }.loadP d) :=
  ⟨by decide, by decide, fun _ _ => (BitVec.add_zero _).symm, fun _ _ => rfl⟩

/-- With no byte left to supply, a cycle that is made reads the Bus. -/
theorem runOps_cons_nil {u : MicroOp} {us : List MicroOp} {s : State} (h : u.skipped s = false) :
    runOps (u :: us) [] s = runOps us [] (cycle u us none s) := by
  rw [runOps_cons h, supply_nil, rest_nil]

/-- The start of an instruction has run no cycle. -/
theorem RunsTo.start (s : State) : RunsTo s (startInstr s) 0 0 s.view [] :=
  ⟨rfl, (BitVec.add_zero _).symm, rfl, rfl, id, rfl, rfl, fun _ => rfl⟩

section
variable {s w : State} {n k : Nat} {v : View} {log : List PortEvent}

theorem RunsTo.sp (h : RunsTo s w n k v log) : w.sp = v.sp := congrArg View.sp h.view

theorem RunsTo.stored (h : RunsTo s w n k v log) : w.stored = v.cells := congrArg View.cells h.view

theorem RunsTo.target (h : RunsTo s w n k v log) (a : Addr) : target w a = target s a := target_congr h.profile a

/-- A run and then a read cycle. -/
theorem RunsTo.read (h : RunsTo s w n k v log) {u : MicroOp} {m : Nat} {f : Byte → View → View} (hu : u.Reads m f)
    {a : Addr} (hread : u.access w = .read a) (us : List MicroOp) (x : Option Byte) :
    RunsTo s (cycle u us x w) (n + m) (k + 1) (f (cycle u us x w).busLatch v) (readEvents (Machine.target s a) ++ log) := by
  have hr := read_runsTo hread hu.jam hu.trap hu.pc hu.view us x
  rw [h.view, h.target] at hr
  exact h.trans hr

/-- A run and then a push (R24, R63). -/
theorem RunsTo.push (h : RunsTo s w n k v log) (hm : Memory.wf s.mem = true) {u : MicroOp} {d : Byte}
    (hacc : u.access w = .write (stackAddr w.sp) d) (hact : ∀ d r, u.act d r = { r with sp := r.sp - 1 })
    (us : List MicroOp) :
    RunsTo s (cycle u us none w) n (k + 1) { v with sp := v.sp - 1, cells := s.afterPush v.sp d v.cells }
      (writeEvents (Machine.target s (stackAddr v.sp)) d ++ log) := by
  have hp := push_runsTo hacc hact (h.mem_wf hm) us
  have hpage : w.afterPush v.sp d v.cells = s.afterPush v.sp d v.cells := by
    funext a
    simp only [State.afterPush, State.afterStore, h.target]
  rw [h.view, h.sp, h.stored, hpage, h.target] at hp
  exact h.trans hp

/-- A run of an instruction's cycles and then cycles that keep the view end it. -/
theorem RunsTo.ends (h : RunsTo s w n k v log) {t : State} (hs : Same w t) {us : List MicroOp} {bytes : List Byte}
    (ht : t = runOps (.opcode :: us) bytes (startInstr s)) : Ends s t :=
  ends_of ht (remaining_opcode _ _) (hs.halted.trans h.halted)
    fun hb => (hs.fault (h.noBusFault hb)).trans (h.fault hb)

theorem RunsTo.view_of_same (h : RunsTo s w n k v log) {t : State} (hs : Same w t) : t.view = v := hs.view.trans h.view

end

/-- The cycles of jumps, returns and branches that set PC, some of them a latch too, and touch nothing else. -/
def MicroOp.jumps : MicroOp → Bool
  | .argJump | .ptrJump | .pullHi | .incPC | .branchTake _ | .branchFix _ => true
  | _ => false

/-- A cycle that sets PC keeps the rest. -/
theorem jump_same {u : MicroOp} (h : u.jumps = true) (us : List MicroOp) (x : Option Byte) (s : State) :
    Same s (cycle u us x s) := by
  obtain ⟨a, ha⟩ : ∃ a, u.access s = .read a := by
    cases u <;> first | exact ⟨_, rfl⟩ | cases h
  refine cycle_same_of_read ha (fun d => ?_) us x
  cases u <;> first
    | exact ⟨rfl, rfl, rfl, rfl, rfl, rfl, rfl, rfl, rfl, rfl, rfl, rfl, rfl, fun hb => faultAfter_eq (s := s) hb a⟩
    | cases h

/-! ### JSR (R147, R271) -/

theorem exec_jsr (a : Addr) (s : State) :
    exec (.jsr a) s = .next (runOps jsrOps [0x20, lo a, hi a] (startInstr s)) := rfl

/-- JSR's cycles before the jump: its low target byte is latched, and PC, at the high one, is pushed (R147 T1 to T5). -/
theorem jsrOps_beforeJump (l h : Byte) {s : State} (hm : Memory.wf s.mem = true) :
    ∃ w log, runOps jsrOps [0x20, l, h] (startInstr s) = cycle .argJump [] (some h) w ∧
      RunsTo s w 2 5 { s.view with
        sp := s.sp - 2
        cells := s.afterPush (s.sp - 1) (lo (s.pc + 2)) (s.afterPush s.sp (hi (s.pc + 2)) s.stored) } log ∧
      w.ad = zeroPage l := by
  obtain ⟨x1, hx1⟩ : ∃ x, x = cycle .opcode jsrOps.tail (some 0x20) (startInstr s) := ⟨_, rfl⟩
  obtain ⟨x2, hx2⟩ : ∃ x, x = cycle .argLo [.stackDummy, .pushHi, .pushLo, .argJump] (some l) x1 := ⟨_, rfl⟩
  obtain ⟨x3, hx3⟩ : ∃ x, x = cycle .stackDummy [.pushHi, .pushLo, .argJump] none x2 := ⟨_, rfl⟩
  obtain ⟨x4, hx4⟩ : ∃ x, x = cycle .pushHi [.pushLo, .argJump] none x3 := ⟨_, rfl⟩
  have h1 := hx1 ▸ (RunsTo.start s).read opcode_reads rfl jsrOps.tail (some 0x20)
  have h2 := hx2 ▸ h1.read argLo_reads rfl [.stackDummy, .pushHi, .pushLo, .argJump] (some l)
  have h3 := hx3 ▸ h2.read stackDummy_reads rfl [.pushHi, .pushLo, .argJump] none
  have h4 := hx4 ▸ h3.push hm (u := .pushHi) rfl (fun _ _ => rfl) [.pushLo, .argJump]
  have h5 := h4.push hm (u := .pushLo) rfl (fun _ _ => rfl) [.argJump]
  have hpc3 : x3.pc = s.pc + 2 := h3.pc
  have hpc4 : x4.pc = s.pc + 2 := h4.pc
  have hsp : s.view.sp - 1 - 1 = s.sp - 2 := by show s.sp - 1 - 1 = _; bv_omega
  rw [hpc3, hpc4, hsp] at h5
  refine ⟨_, _, ?_, h5, ?_⟩
  · rw [hx4, hx3, hx2, hx1]
    rfl
  · simp [cycle_ad, MicroOp.act, hx4, hx3, hx2, delivered, MicroOp.access]

/-- Settles O42: JSR's pushes, then the jump to the address of the low byte latched and the high byte fetched last. -/
theorem jsrPushesItsReturn : Obligations.JsrPushesItsReturn := by
  intro a s hm
  obtain ⟨w, log, hrun, hw, had⟩ := jsrOps_beforeJump (lo a) (hi a) hm
  have hsame := jump_same (u := .argJump) rfl [] (some (hi a)) w
  refine ⟨rfl, _, by rw [exec_jsr, hrun], hw.ends hsame (us := jsrOps.tail) hrun.symm, hw.view_of_same hsame, ?_, ?_⟩
  · simp [cycle_pc, MicroOp.act, delivered, MicroOp.access, had]
  · rw [cycle_cycles, hw.cycles]

/-! ### Returns (R148, R149, R272, R273) -/

theorem exec_rts (s : State) : exec .rts s = .next (runOps rtsOps [0x60] (startInstr s)) := rfl

theorem exec_rti (s : State) : exec .rti s = .next (runOps rtiOps [0x40] (startInstr s)) := rfl

/-- The pull of PC's two bytes at S and S + 1, which leaves S at the second (R148, R149). -/
theorem pullPc_runsTo {s w : State} {n k : Nat} {v : View} {log : List PortEvent} (h : RunsTo s w n k v log)
    (us : List MicroOp) :
    ∃ x t log', runOps (.pullLo :: .pullHi :: us) [] w = runOps us [] t ∧
      RunsTo s x n (k + 1) { v with sp := v.sp + 1 } log' ∧ Same x t ∧ t.cycles = s.cycles + (k + 2) ∧
      ∀ p, wordAt v.cells (stackAddr v.sp) (stackAddr (v.sp + 1)) = some p → t.pc = p := by
  obtain ⟨x, hx⟩ : ∃ x, x = cycle .pullLo (.pullHi :: us) none w := ⟨_, rfl⟩
  have hr := hx ▸ h.read pullLo_reads rfl (.pullHi :: us) none
  refine ⟨x, cycle .pullHi us none x, _, by rw [hx]; rfl, hr, jump_same rfl _ _ _, by rw [cycle_cycles, hr.cycles]; rfl,
    fun p hp => ?_⟩
  obtain ⟨l, b, hl, hb, rfl⟩ := wordAt_eq_some hp
  have had : x.ad = zeroPage l := by
    rw [← h.stored, ← h.sp] at hl
    rw [← read_busLatch (u := .pullLo) rfl hl (.pullHi :: us), hx]
    simp [cycle_ad, cycle_busLatch, MicroOp.act]
  have hhi : delivered .pullHi none x = b := by
    have hsp : x.sp = v.sp + 1 := hr.sp
    rw [← hsp, ← hr.stored] at hb
    exact busValue_of_stored hb
  simp [cycle_pc, MicroOp.act, had, hhi]

theorem add_one_one (v : Byte) : v + 1 + 1 = v + 2 := BitVec.add_assoc v 1 1

theorem add_two_one (v : Byte) : v + 2 + 1 = v + 3 := BitVec.add_assoc v 2 1

/-- RTS pulls PC and steps it on (R148, R272). -/
theorem rts_returns (s : State) :
    ∃ t, exec .rts s = .next t ∧ Ends s t ∧ t.view = { s.view with sp := s.sp + 2 } ∧
      (∀ w, wordAt s.stored (stackAddr (s.sp + 1)) (stackAddr (s.sp + 2)) = some w → t.pc = w + 1) ∧
      t.cycles = s.cycles + 6 := by
  obtain ⟨w, hrest, hw⟩ := opcode_dummyPC_runsTo [.stackInc, .pullLo, .pullHi, .incPC] 0x60 s
  have hinc := hw.read stackInc_reads rfl [.pullLo, .pullHi, .incPC] none
  obtain ⟨x, y, log, hpull, hx, hxy, hcycles, hpc⟩ := pullPc_runsTo hinc [.incPC]
  have hx : RunsTo s x 1 4 { s.view with sp := s.sp + 2 } log := add_one_one s.sp ▸ hx
  have hrun : runOps rtsOps [0x60] (startInstr s) = cycle .incPC [] none y := by
    rw [rtsOps, hrest, runOps_cons_nil rfl, hpull, runOps_cons_nil rfl, runOps_nil]
  have hsame := hxy.trans (jump_same (u := .incPC) rfl [] none y)
  refine ⟨_, by rw [exec_rts, hrun], hx.ends hsame (us := rtsOps.tail) hrun.symm, hx.view_of_same hsame, fun p hp => ?_, ?_⟩
  · rw [← add_one_one] at hp
    rw [← hpc p hp]
    simp [cycle_pc, MicroOp.act]
  · rw [cycle_cycles, hcycles]

/-- RTI pulls P, then PC, which it does not step on (R149, R273, R394). -/
theorem rti_returns (s : State) :
    ∃ t p, exec .rti s = .next t ∧ Ends s t ∧ (∀ v, s.stored (stackAddr (s.sp + 1)) = some v → p = v) ∧
      t.view = { s.view with sp := s.sp + 3 }.loadP p ∧
      (∀ w, wordAt s.stored (stackAddr (s.sp + 2)) (stackAddr (s.sp + 3)) = some w → t.pc = w) ∧
      t.cycles = s.cycles + 6 := by
  obtain ⟨w, hrest, hw⟩ := opcode_dummyPC_runsTo [.stackInc, .pullPInc, .pullLo, .pullHi] 0x40 s
  obtain ⟨x, hx⟩ : ∃ x, x = cycle .stackInc [.pullPInc, .pullLo, .pullHi] none w := ⟨_, rfl⟩
  have hinc : RunsTo s x 1 3 { s.view with sp := s.sp + 1 } _ :=
    hx ▸ hw.read stackInc_reads rfl [.pullPInc, .pullLo, .pullHi] none
  obtain ⟨y, hy⟩ : ∃ y, y = cycle .pullPInc [.pullLo, .pullHi] none x := ⟨_, rfl⟩
  have hflags : RunsTo s y 1 4 ({ s.view with sp := s.sp + 2 }.loadP y.busLatch) _ :=
    hy ▸ add_one_one s.sp ▸ hinc.read pullPInc_reads rfl [.pullLo, .pullHi] none
  obtain ⟨z, t, log, hlast, hz, hzt, hcycles, hpc⟩ := pullPc_runsTo hflags []
  have hz : RunsTo s z 1 5 ({ s.view with sp := s.sp + 3 }.loadP y.busLatch) log := add_two_one s.sp ▸ hz
  have hrun : runOps rtiOps [0x40] (startInstr s) = t := by
    rw [rtiOps, hrest, runOps_cons_nil rfl, ← hx, runOps_cons_nil rfl, ← hy, hlast, runOps_nil]
  refine ⟨t, y.busLatch, by rw [exec_rti, hrun], hz.ends hzt (us := rtiOps.tail) hrun.symm, fun v hv => ?_,
    hz.view_of_same hzt, fun p hp => ?_, hcycles⟩
  · rw [hy]
    exact read_busLatch rfl (by rw [hinc.stored, hinc.sp]; exact hv) [.pullLo, .pullHi]
  · rw [← add_two_one] at hp
    exact hpc p hp

/-- Settles O43: RTS and RTI, which share the pull of PC. -/
theorem returnsPullPc : Obligations.ReturnsPullPc := fun s => ⟨⟨rfl, rts_returns s⟩, ⟨rfl, rti_returns s⟩⟩

end Sys2Proof.Machine
end

section
/-! The branches (40_sequencer.md R144, 44_control.md R275 to R283): two fetches, then up to two cycles that set PC alone. -/

namespace Sys2Proof.Machine

theorem Same.refl (s : State) : Same s s := by constructor <;> intros <;> rfl

/-! ### The target -/

/-- The model's target is the sum of PC and the signed offset (R144). -/
theorem branchTarget_eq (pc : Addr) (o : Byte) : pc + 2 + sext o = BitVec.ofInt 16 ((pc.toNat : Int) + 2 + o.toInt) := by
  have hpc : (BitVec.ofInt 16 pc.toNat : Addr) = pc := by simp
  have ho : sext o = BitVec.ofInt 16 o.toInt := rfl
  rw [BitVec.ofInt_add, BitVec.ofInt_add, hpc, ho]
  rfl

/-- An address in the page of `a` is the high byte of `a` and its own low byte. -/
theorem join_hi_of_hi_eq {a b : Addr} (h : hi b = hi a) : join (hi a) (lo b) = b := by rw [← h, join_hi_lo]

/-! ### The cycles of a branch -/

/-- The fetches of a branch leave PC after it and the offset in DL (R144 T1, T2). -/
theorem branch_fetched (c : Cond) (op o : Byte) (s : State) :
    ∃ w, runOps (branchOps c) [op, o] (startInstr s) = runOps [.branchTake c, .branchFix c] [] w ∧ Same s w ∧
      w.pc = s.pc + 2 ∧ w.dl = o ∧ w.cycles = s.cycles + 2 := by
  refine ⟨cycle .argOff [.branchTake c, .branchFix c] (some o)
    (cycle .opcode [.argOff, .branchTake c, .branchFix c] (some op) (startInstr s)), rfl,
    ((Same.start s).trans (quiet_same rfl _ _ _)).trans (quiet_same rfl _ _ _), ?_, ?_, ?_⟩
  · simp [cycle_pc, MicroOp.act, pc2]
  · simp [cycle_dl, MicroOp.act, delivered, MicroOp.access]
  · simp

/-- The condition is read from flags that stay. -/
theorem Same.holds {s w : State} (h : Same s w) (c : Cond) : c.holds w = c.holds s := by
  cases c <;> simp only [Cond.holds, h.fN, h.fV, h.fC, h.fZ]

/-- The address after a branch (R144). -/
def branchPc (taken : Bool) (pc : Addr) (o : Byte) : Addr := if taken then pc + sext o else pc

/-- The cycles that a branch adds to its two fetches (R144): one when taken, and one more to another page. -/
def branchCycles (taken : Bool) (pc : Addr) (o : Byte) : Nat :=
  (if taken then 1 else 0) + if taken ∧ hi (branchPc taken pc o) ≠ hi pc then 1 else 0

/-- The last cycles of a branch, each made or not, leave PC at its target if it is taken (R144 T3, T4). -/
theorem branch_last (c : Cond) (w : State) :
    ∃ t, runOps [.branchTake c, .branchFix c] [] w = t ∧ Same w t ∧ t.pc = branchPc (c.holds w) w.pc w.dl ∧
      t.cycles = w.cycles + branchCycles (c.holds w) w.pc w.dl := by
  cases hc : c.holds w
  case false => exact ⟨w, by simp [runOps, MicroOp.skipped, hc], Same.refl w, rfl, rfl⟩
  case true =>
    obtain ⟨x, hx⟩ : ∃ x, x = cycle (.branchTake c) [.branchFix c] none w := ⟨_, rfl⟩
    have hwx : Same w x := hx ▸ jump_same rfl _ _ _
    have htake : runOps [.branchTake c, .branchFix c] [] w = runOps [.branchFix c] [] x := by
      rw [runOps_cons_nil (by simp [MicroOp.skipped, hc]), hx]
    have hxpc : x.pc = join (hi w.pc) (lo (w.pc + sext w.dl)) := by
      rw [hx]; simp [cycle_pc, MicroOp.act, branchTarget]
    have hxad : x.ad = w.pc + sext w.dl := by
      rw [hx]; simp [cycle_ad, MicroOp.act, branchTarget]
    have hcrossed : x.crossed = decide (hi (w.pc + sext w.dl) ≠ hi w.pc) := by
      rw [hx]; simp [cycle_crossed, MicroOp.act, branchTarget]
    have hcycles : x.cycles = w.cycles + 1 := by rw [hx, cycle_cycles]
    have hhold : c.holds x = true := (hwx.holds c).trans hc
    rw [htake]
    by_cases hpage : hi (w.pc + sext w.dl) = hi w.pc
    · refine ⟨x, by simp [runOps, MicroOp.skipped, hcrossed, hpage], hwx, ?_, ?_⟩
      · rw [hxpc, join_hi_of_hi_eq hpage]
        rfl
      · simp [hcycles, branchCycles, branchPc, hpage]
    · refine ⟨cycle (.branchFix c) [] none x, ?_, hwx.trans (jump_same rfl _ _ _), ?_, ?_⟩
      · rw [runOps_cons_nil (by simp [MicroOp.skipped, hhold, hcrossed, hpage]), runOps_nil]
      · simp [cycle_pc, MicroOp.act, hxad, branchPc]
      · simp [hcycles, branchCycles, branchPc, hpage, Nat.add_assoc]

/-! ### From the opcode -/

/-- A branch instruction that runs the sequence of its condition is right about its words and its row, goes to its target
exactly on the condition, and changes nothing but PC (R144). -/
theorem branch_row (c : Cond) {i : Instr} {op o : Byte} {s : State} (hw : i.wellFormed = true) (henc : encode i = [op, o])
    (hop : ∃ r ∈ rowsBranch, r.1 = op) (hexec : exec i s = runInstr (branchOps c) [op, o] s) :
    encode i = [op, o] ∧ decode [op, o] = .ok (i, []) ∧ i.rowRight rowsBranch ∧
      ∃ t, exec i s = .next t ∧ Ends s t ∧ t.view = s.view ∧
        t.pc = (if c.holds s then BitVec.ofInt 16 ((s.pc.toNat : Int) + 2 + o.toInt) else s.pc + 2) ∧
        t.cycles = s.cycles + 2 + (if c.holds s then 1 else 0) +
          (if c.holds s ∧ hi t.pc ≠ hi (s.pc + 2) then 1 else 0) := by
  have hopcode : i.opcode = op := by rw [Instr.opcode, henc]; rfl
  have hdec : decode [op, o] = .ok (i, []) := by simpa [henc] using decodeInvertsEncode i [] hw
  obtain ⟨w, hfetch, hsw, hpc, hdl, hcycles⟩ := branch_fetched c op o s
  obtain ⟨t, hlast, hwt, htpc, htcycles⟩ := branch_last c w
  have hsame := hsw.trans hwt
  have hrun := hfetch.trans hlast
  rw [hsw.holds, hpc, hdl] at htpc htcycles
  refine ⟨henc, hdec, rowRight_of rowsBranch_right ⟨hw, hopcode ▸ hop⟩, t, by rw [hexec, runInstr, hrun],
    ends_of hrun.symm (remaining_opcode _ _) hsame.halted hsame.fault, hsame.view, ?_, ?_⟩
  · rw [htpc, branchPc, branchTarget_eq]
  · rw [htcycles, branchCycles, htpc, hcycles, Nat.add_assoc, Nat.add_assoc, Nat.add_assoc]

/-- Settles O44: each branch runs the sequence of its condition. -/
theorem branchesFollowTheirFlag : Obligations.BranchesFollowTheirFlag := by
  intro s o i op taken h
  simp only [List.mem_cons, List.not_mem_nil, or_false, Prod.mk.injEq] at h
  rcases h with ⟨rfl, rfl, rfl⟩ | ⟨rfl, rfl, rfl⟩ | ⟨rfl, rfl, rfl⟩ | ⟨rfl, rfl, rfl⟩ | ⟨rfl, rfl, rfl⟩ |
    ⟨rfl, rfl, rfl⟩ | ⟨rfl, rfl, rfl⟩ | ⟨rfl, rfl, rfl⟩
  · exact branch_row .pl rfl rfl (by decide) rfl
  · exact branch_row .mi rfl rfl (by decide) rfl
  · exact branch_row .vc rfl rfl (by decide) rfl
  · exact branch_row .vs rfl rfl (by decide) rfl
  · exact branch_row .cc rfl rfl (by decide) rfl
  · exact branch_row .cs rfl rfl (by decide) rfl
  · exact branch_row .ne rfl rfl (by decide) rfl
  · exact branch_row .eq rfl rfl (by decide) rfl

end Sys2Proof.Machine
end

section
/-! The interrupt inputs over the cycles of a sequence (60_exceptions.md R381, R382), and the entry cycles that an interrupt and
BRK share (40_sequencer.md R152, R390; 44_control.md R274). -/

namespace Sys2Proof.Machine

/-! ### The inputs after a cycle -/

/-- The two states have the same interrupt inputs to come, and have sampled the same. -/
structure SameInputs (s w : State) : Prop where
  profile      : w.profile = s.profile
  inputs       : w.inputs = s.inputs
  ppuLine      : w.ppuLine = s.ppuLine
  irqAsserting : w.irqAsserting = s.irqAsserting
  nmiPrev      : w.nmiPrev = s.nmiPrev
  nmiPending   : w.nmiPending = s.nmiPending
  irqSampled   : w.irqSampled = s.irqSampled

theorem SameInputs.trans {s w r : State} (h : SameInputs s w) (k : SameInputs w r) : SameInputs s r :=
  ⟨k.profile.trans h.profile, k.inputs.trans h.inputs, k.ppuLine.trans h.ppuLine,
    k.irqAsserting.trans h.irqAsserting, k.nmiPrev.trans h.nmiPrev, k.nmiPending.trans h.nmiPending,
    k.irqSampled.trans h.irqSampled⟩

theorem nmiLine_congr {s w : State} (hp : w.profile = s.profile) (hl : w.ppuLine = s.ppuLine) : nmiLine w = nmiLine s := by
  rw [nmiLine, nmiLine, hp, hl]

theorem irqLine_congr {s w : State} (hp : w.profile = s.profile) (hl : w.ppuLine = s.ppuLine)
    (hi : w.irqAsserting = s.irqAsserting) : irqLine w = irqLine s := by
  rw [irqLine, irqLine, hp, hl, hi]

/-- Equal inputs are sampled equally (R382). -/
theorem SameInputs.sample {s w : State} (h : SameInputs s w) :
    SameInputs (sampleInputs (clock s)) (sampleInputs (clock w)) := by
  have hnow : inputNow w = inputNow s := by simp only [inputNow, h.inputs, h.ppuLine, h.irqAsserting]
  have hline : (clock w).ppuLine = (clock s).ppuLine := congrArg CycleInput.ppuLine hnow
  have hdevices : (clock w).irqAsserting = (clock s).irqAsserting := congrArg CycleInput.irqAsserting hnow
  have hnmi : nmiLine (clock w) = nmiLine (clock s) := nmiLine_congr h.profile hline
  have hirq : irqLine (clock w) = irqLine (clock s) := irqLine_congr h.profile hline hdevices
  have hedge : ((clock w).nmiPending || (nmiLine (clock w) && !(clock w).nmiPrev)) =
      ((clock s).nmiPending || (nmiLine (clock s) && !(clock s).nmiPrev)) := by
    rw [hnmi, show (clock w).nmiPending = _ from h.nmiPending, show (clock w).nmiPrev = _ from h.nmiPrev]
    rfl
  exact ⟨h.profile, congrArg List.tail h.inputs, hline, hdevices, hnmi, hedge, hirq⟩

theorem SameInputs.sampled {s w : State} (h : SameInputs s w) (n : Nat) : SameInputs (sampled n s) (sampled n w) := by
  induction n generalizing s w with
  | zero => exact h
  | succ n ih => exact ih h.sample

theorem sampled_add (m n : Nat) (s : State) : sampled (m + n) s = sampled n (sampled m s) := by
  induction m generalizing s with
  | zero => rw [Nat.zero_add]; rfl
  | succ m ih => rw [Nat.succ_add]; exact ih _

theorem sampled_profile (n : Nat) (s : State) : (sampled n s).profile = s.profile := by
  induction n generalizing s with
  | zero => rfl
  | succ n ih => exact ih _

/-- But for a vector decision at its end, a cycle samples the inputs once (R382, R388). -/
theorem cycle_samples_late (u : MicroOp) (us : List MicroOp) (x : Option Byte) (s : State) :
    ∃ r, SameInputs (sampled 1 s) r ∧ SameInputs (u.late r) (cycle u us x s) ∧ (cycle u us x s).vec = (u.late r).vec := by
  obtain ⟨q, hq⟩ : ∃ q, q = u.act (delivered u x s) (accessed u x s) := ⟨_, rfl⟩
  have hsq : SameInputs s q := by constructor <;> simp [hq]
  have hpoll : ∀ b, SameInputs (sampleInputs (clock q)) (endOfCycle b q) := fun b => ⟨rfl, rfl, rfl, rfl, rfl, rfl, rfl⟩
  have hcycle : cycle u us x s = advance us (u.late (endOfCycle (isPollPoint (remaining us q) q) q)) := by
    rw [cycle_eq, finishCycle, ← hq]
  rw [hcycle]
  exact ⟨_, hsq.sample.trans (hpoll _), ⟨rfl, rfl, rfl, rfl, rfl, rfl, rfl⟩, rfl⟩

/-- After `n` samplings, a cycle without a vector decision makes one more (R382). -/
theorem SameInputs.cycle {s w : State} {n : Nat} (h : SameInputs (Machine.sampled n s) w) {u : MicroOp}
    (hu : u ≠ .pushLoVec) (us : List MicroOp) (x : Option Byte) :
    SameInputs (Machine.sampled (n + 1) s) (cycle u us x w) := by
  obtain ⟨r, hr, hc, _⟩ := cycle_samples_late u us x w
  rw [MicroOp.late, if_neg hu] at hc
  rw [sampled_add]
  exact (h.sampled 1).trans (hr.trans hc)

/-- After `n` samplings, the vector decision of the next cycle goes by the sampling at its end, and serves an NMI (R388). -/
theorem SameInputs.decides {s w : State} {n : Nat} (h : SameInputs (Machine.sampled n s) w) (us : List MicroOp)
    (x : Option Byte) :
    SameInputs { Machine.sampled (n + 1) s with nmiPending := false } (Machine.cycle .pushLoVec us x w) ∧
      (Machine.cycle .pushLoVec us x w).vec =
        if (Machine.sampled (n + 1) s).nmiPending then s.profile.vecNmi else s.profile.vecIrq := by
  obtain ⟨r, hr, hc, hvec⟩ := cycle_samples_late .pushLoVec us x w
  have hr := (h.sampled 1).trans hr
  rw [← sampled_add] at hr
  have hserved : SameInputs { Machine.sampled (n + 1) s with nmiPending := false } (decideVector r) :=
    ⟨hr.profile, hr.inputs, hr.ppuLine, hr.irqAsserting, hr.nmiPrev, rfl, hr.irqSampled⟩
  refine ⟨hserved.trans hc, hvec.trans ?_⟩
  rw [show MicroOp.late .pushLoVec r = decideVector r from rfl, decideVector_vec, hr.nmiPending, hr.profile, sampled_profile]

/-! ### The entry's cycles -/

theorem argSig_reads : MicroOp.argSig.Reads 1 (fun _ v => v) :=
  ⟨by decide, by decide, fun _ _ => rfl, fun _ _ => rfl⟩

/-- The read of the vector's low byte sets I (R390 T6). -/
theorem vecLo_reads : MicroOp.vecLo.Reads 0 (fun _ v => { v with fI := true }) :=
  ⟨by decide, by decide, fun _ _ => (BitVec.add_zero _).symm, fun _ _ => rfl⟩

/-- What an entry of seven cycles leaves, that pushes `ret` and the status byte with B as `b` (R388, R390). -/
structure Enters (s t : State) (ret : Addr) (b : Bool) : Prop where
  view       : t.view = { s.view with
    sp := s.sp - 3, fI := true, cells := s.afterEntry ret (BitVec.ofNat 8 (s.view.pNat b)) }
  vec        : t.vec = if (sampled 4 s).nmiPending then s.profile.vecNmi else s.profile.vecIrq
  nmiPending : t.nmiPending = (sampled 3 { sampled 4 s with nmiPending := false }).nmiPending
  vector     : ∀ w, wordAt t.stored t.vec (t.vec + 1) = some w → t.pc = w
  pc         : t.pc = join t.busLatch t.dl
  cycles     : t.cycles = s.cycles + 7
  halted     : t.halted = s.halted
  fault      : s.noBusFault → t.fault = s.fault

theorem sub_one_one (v : Byte) : v - 1 - 1 = v - 2 := by bv_omega

theorem sub_two_one (v : Byte) : v - 2 - 1 = v - 3 := by bv_omega

/-- The entry's three pushes, with the vector decision at the end of the second (R388, R390 T3 to T5). -/
theorem entryTail_pushes {s w : State} {n : Nat} {log : List PortEvent} (h : RunsTo s w n 2 s.view log)
    (hin : SameInputs (sampled 2 s) w) (hm : Memory.wf s.mem = true) :
    ∃ x log', runOps entryTail [] w = runOps [.vecLo, .vecHi] [] x ∧
      RunsTo s x n 5 { s.view with
        sp := s.sp - 3
        cells := s.afterEntry (s.pc + BitVec.ofNat 16 n) (BitVec.ofNat 8 (s.view.pNat w.bflag)) } log' ∧
      x.vec = (if (sampled 4 s).nmiPending then s.profile.vecNmi else s.profile.vecIrq) ∧
      SameInputs (sampled 1 { sampled 4 s with nmiPending := false }) x := by
  obtain ⟨x, hx⟩ : ∃ x, x = cycle .pushHi [.pushLoVec, .pushP, .vecLo, .vecHi] none w := ⟨_, rfl⟩
  obtain ⟨y, hy⟩ : ∃ y, y = cycle .pushLoVec [.pushP, .vecLo, .vecHi] none x := ⟨_, rfl⟩
  have hxpc : x.pc = w.pc := by rw [hx, cycle_pc]; exact accessed_pc ..
  have hbflag : y.bflag = w.bflag := by simp [hy, hx, cycle_bflag, MicroOp.act]
  have h1 : RunsTo s x n 3 { s.view with
      sp := s.sp - 1, cells := s.afterPush s.sp (hi w.pc) s.stored } _ :=
    hx ▸ h.push hm (u := .pushHi) rfl (fun _ _ => rfl) [.pushLoVec, .pushP, .vecLo, .vecHi]
  have h2 : RunsTo s y n 4 { s.view with
      sp := s.sp - 2, cells := s.afterPush (s.sp - 1) (lo w.pc) (s.afterPush s.sp (hi w.pc) s.stored) } _ :=
    hy ▸ sub_one_one s.sp ▸ hxpc ▸ h1.push hm (u := .pushLoVec) rfl (fun _ _ => rfl) [.pushP, .vecLo, .vecHi]
  have hp : pByte y.bflag y = BitVec.ofNat 8 (s.view.pNat w.bflag) := by
    rw [pByte_eq_pNat, h2.view, hbflag]
    rfl
  have h3 : RunsTo s (cycle .pushP [.vecLo, .vecHi] none y) n 5 { s.view with
      sp := s.sp - 3, cells := s.afterEntry w.pc (BitVec.ofNat 8 (s.view.pNat w.bflag)) } _ :=
    sub_two_one s.sp ▸ hp ▸ h2.push hm (u := .pushP) rfl (fun _ _ => rfl) [.vecLo, .vecHi]
  obtain ⟨hserved, hvec⟩ := (hin.cycle (u := .pushHi) (by decide) [.pushLoVec, .pushP, .vecLo, .vecHi] none).decides
    [.pushP, .vecLo, .vecHi] none
  rw [← hx, ← hy] at hserved hvec
  refine ⟨_, _, ?_, h.pc ▸ h3, ?_, ?_⟩
  · rw [entryTail, runOps_cons_nil rfl, runOps_cons_nil rfl, runOps_cons_nil rfl, ← hx, ← hy]
  · rw [cycle_vec (by decide), hvec]
  · exact SameInputs.cycle (n := 0) hserved (by decide) _ _

/-- The cycles that the entries share, after two that leave the view (R152, R390): the pushes, then the vector's word. -/
theorem entryTail_enters {s w : State} {n : Nat} {log : List PortEvent} (h : RunsTo s w n 2 s.view log)
    (hin : SameInputs (sampled 2 s) w) (hm : Memory.wf s.mem = true) :
    Enters s (runOps entryTail [] w) (s.pc + BitVec.ofNat 16 n) w.bflag := by
  obtain ⟨x, log', hrun, hx, hvec, hserved⟩ := entryTail_pushes h hin hm
  obtain ⟨y, hy⟩ : ∃ y, y = cycle .vecLo [.vecHi] none x := ⟨_, rfl⟩
  obtain ⟨t, ht⟩ : ∃ t, t = cycle .vecHi [] none y := ⟨_, rfl⟩
  have hyv := hy ▸ hx.read vecLo_reads rfl [.vecHi] none
  have hsame : Same y t := ht ▸ vecHi_same ..
  have hrun : runOps entryTail [] w = t := by
    rw [hrun, runOps_cons_nil rfl, ← hy, runOps_cons_nil rfl, ← ht, runOps_nil]
  have hyvec : y.vec = x.vec := by rw [hy, cycle_vec (by decide)]
  have htvec : t.vec = x.vec := by rw [ht, cycle_vec (by decide), hyvec]
  have hdl : t.dl = y.busLatch := by
    rw [ht, hy]; simp [cycle_dl, cycle_busLatch, MicroOp.act]
  have hpc : t.pc = join t.busLatch t.dl := by
    rw [ht]; simp [cycle_pc, cycle_dl, cycle_busLatch, MicroOp.act]
  rw [hrun]
  refine {
    view := hyv.view_of_same hsame
    vec := htvec.trans hvec
    nmiPending := ?_
    vector := fun word hw => ?_
    pc := hpc
    cycles := by rw [ht, cycle_cycles, hyv.cycles]
    halted := hsame.halted.trans hyv.halted
    fault := fun hb => (hsame.fault (hyv.noBusFault hb)).trans (hyv.fault hb) }
  · have hlast := (hserved.cycle (u := .vecLo) (by decide) [.vecHi] none).cycle (u := .vecHi) (by decide) [] none
    rw [← hy, ← ht] at hlast
    exact hlast.nmiPending
  · rw [htvec, hsame.stored] at hw
    obtain ⟨l, b, hl, hb, rfl⟩ := wordAt_eq_some hw
    have hlo : y.busLatch = l := by
      rw [hy]
      refine read_busLatch rfl ?_ _
      rw [hx.stored]
      rwa [hyv.stored] at hl
    have hhi : t.busLatch = b := by
      rw [ht]
      refine read_busLatch rfl ?_ _
      rwa [hyvec]
    rw [hpc, hdl, hlo, hhi]

/-! ### BRK (R152, R274) -/

theorem exec_brk (sig : Byte) (s : State) : exec (.brk sig) s = .next (runOps brkOps [0x00, sig] (startInstr s)) := rfl

/-- BRK's own fetches set the B bit to push (R152 T1, T2). -/
theorem brk_fetched (sig : Byte) (s : State) :
    ∃ w log, runOps brkOps [0x00, sig] (startInstr s) = runOps entryTail [] w ∧ RunsTo s w 2 2 s.view log ∧
      SameInputs (sampled 2 s) w ∧ w.bflag = true := by
  obtain ⟨x, hx⟩ : ∃ x, x = cycle .opcode (.argSig :: entryTail) (some 0x00) (startInstr s) := ⟨_, rfl⟩
  have h1 := hx ▸ (RunsTo.start s).read opcode_reads rfl (.argSig :: entryTail) (some 0x00)
  have h2 := h1.read argSig_reads rfl entryTail (some sig)
  have hstart : SameInputs (sampled 0 s) (startInstr s) := ⟨rfl, rfl, rfl, rfl, rfl, rfl, rfl⟩
  have hin := hx ▸ hstart.cycle (u := .opcode) (by decide) (.argSig :: entryTail) (some 0x00)
  refine ⟨_, _, ?_, h2, hin.cycle (by decide) _ _, ?_⟩
  · rw [brkOps, List.cons_append, runOps_cons rfl, List.cons_append, runOps_cons rfl, hx]
    rfl
  · simp [cycle_bflag, MicroOp.act]

/-- Settles O24: BRK's own two fetches, then the entry that it shares with the interrupts, with B set. -/
theorem brkEntersTheHandler : Obligations.BrkEntersTheHandler := by
  intro sig s hm
  obtain ⟨w, log, hrun, hw, hin, hb⟩ := brk_fetched sig s
  have h := entryTail_enters hw hin hm
  rw [hb, ← hrun] at h
  exact ⟨_, exec_brk sig s, ends_of (ops := brkOps) rfl (remaining_opcode _ _) h.halted h.fault, rfl, h.view, h.vec,
    h.nmiPending, h.vector, h.pc, h.cycles⟩

end Sys2Proof.Machine
end

section
/-! An illegal opcode under `trap` (45_undocumented.md R321, 60_exceptions.md R372, R374): its fetch alone, which records the
fault. -/

namespace Sys2Proof.Machine

/-! ### The opcode of an undocumented instruction -/

/-- An opcode that an instruction of many opcodes may carry is illegal if they all are. -/
theorem illegal_of_carried {ops : List Byte} {op : Byte} (hops : ∀ o ∈ ops, illegal o = true)
    (h : decide (op ∈ ops) = true) : illegal op = true := hops op (of_decide_eq_true h)

/-- The opcode is the first byte of the encoding, and what holds of that byte holds of it. -/
theorem illegal_opcode_of_encode {i : Instr} {op : Byte} {rest : List Byte} {b : Bool} (he : encode i = op :: rest)
    (h : illegal op = b) : illegal i.opcode = b := by
  rw [Instr.opcode, he]
  exact h

/-- The illegal opcodes are those of the undocumented instructions (R97). -/
theorem illegal_opcode {i : Instr} (hw : i.wellFormed = true) : illegal i.opcode = !i.documented := by
  cases i
  case jam => exact illegal_of_carried (ops := jamOpcodes) (by decide) hw
  case nopZp => exact illegal_of_carried (ops := nopZpOpcodes) (by decide) hw
  case ancImm => exact illegal_of_carried (ops := ancImmOpcodes) (by decide) hw
  case nopZpx => exact illegal_of_carried (ops := nopZpxOpcodes) (by decide) hw
  case nopImp => exact illegal_of_carried (ops := nopImpOpcodes) (by decide) hw
  case nopAbx => exact illegal_of_carried (ops := nopAbxOpcodes) (by decide) hw
  case nopImm => exact illegal_of_carried (ops := nopImmOpcodes) (by decide) hw
  all_goals exact illegal_opcode_of_encode rfl rfl

/-- No illegal opcode is a branch's, which alone polls in its first cycle (R92, R385). -/
theorem isBranch_of_illegal : ∀ op : Byte, illegal op = true → isBranch op = false := by decide

/-- The bytes of an instruction begin with its opcode (R90). -/
theorem encode_head? (i : Instr) : (encode i).head? = some i.opcode := by cases i <;> rfl

/-! ### The trapped fetch -/

/-- Under `trap` an illegal opcode is its trapped fetch alone (R321). -/
theorem exec_trapped {i : Instr} {s : State} (hw : i.wellFormed = true) (h : illegal i.opcode = true)
    (hp : s.profile.policy = .trap) : exec i s = .next (runOps [.opcodeTrap] (encode i) (startInstr s)) := by
  have hseq : sequenceOf s.profile.policy i.opcode = [.opcodeTrap] := by rw [hp, sequenceOf, h]; rfl
  rw [exec_eq i s hw, hseq]

/-- The run of a trapped fetch is its one cycle, with the opcode supplied (R321). -/
theorem runOps_opcodeTrap (i : Instr) (s : State) :
    runOps [.opcodeTrap] (encode i) s = cycle .opcodeTrap [] (some i.opcode) s := by
  rw [runOps_cons rfl, runOps_nil, ← encode_head? i]
  rfl

/-- The last cycle of an instruction that is no branch is no poll point (R384). -/
theorem isPollPoint_last {s : State} (h : isBranch s.ir = false) : isPollPoint 0 s = false := by
  unfold isPollPoint
  cases s.seq <;> simp [h]

/-- The trapped fetch of an illegal opcode does not poll (R386). -/
theorem opcodeTrap_intNext {o : Byte} (h : illegal o = true) (s : State) :
    (cycle .opcodeTrap [] (some o) s).intNext = s.intNext := by
  obtain ⟨r, hr⟩ : ∃ r, r = MicroOp.act .opcodeTrap o (accessed .opcodeTrap (some o) s) := ⟨_, rfl⟩
  have hir : r.ir = o := by rw [hr]; rfl
  have hint : r.intNext = s.intNext := by rw [hr]; rfl
  have hpoll : isPollPoint 0 r = false := isPollPoint_last (hir ▸ isBranch_of_illegal o h)
  have hcycle : cycle .opcodeTrap [] (some o) s = advance [] (endOfCycle (isPollPoint 0 r) r) := by
    rw [cycle_eq, hr]
    rfl
  rw [hcycle, hpoll, ← hint]
  rfl

/-- The trapped fetch records the opcode, its address and the cycle, whatever its access recorded (R374; log 29). -/
theorem opcodeTrap_fault (us : List MicroOp) (o : Byte) (s : State) :
    (cycle .opcodeTrap us (some o) s).fault = some ⟨.hardwareFault, 1, s.pc, o, s.cycles + 1⟩ := by
  rw [cycle_fault]
  rfl

/-- Settles O25: under `trap` the sequence of an illegal opcode is its trapped fetch alone. -/
theorem illegalOpcodesTrap : Obligations.IllegalOpcodesTrap := by
  intro i s hw hd hp
  have hill : illegal i.opcode = true := by rw [illegal_opcode hw, hd]; rfl
  have hexec := exec_trapped hw hill hp
  have hboundary : (runOps [.opcodeTrap] (encode i) (startInstr s)).AtBoundary := runOps_boundary [] _ rfl
  rw [runOps_opcodeTrap] at hexec hboundary
  have hfault := opcodeTrap_fault [] i.opcode (startInstr s)
  refine ⟨_, hexec, cycle_view .., ?_, ?_, hboundary, cycle_cycles .., ?_, opcodeTrap_intNext hill _, ?_, hfault,
    boundaryCheck_of_fault hfault⟩
  · rw [cycle_pc]; rfl
  · rw [cycle_ir]; rfl
  · rw [cycle_halted]; rfl
  · rw [cycle_portLog]; rfl

end Sys2Proof.Machine
end

section
/-! The undocumented opcodes under `emulate` (45_undocumented.md R324 to R344): what the operation of each does to the
programmer's view, and the classes of 40_sequencer.md run with it. -/

namespace Sys2Proof.Machine

/-! ### Modifying memory, then combining (R324 to R327, R330, R331) -/

/-- A read-modify-write operation writes back `result c m`, with the carry `c` and the operand `m`, and then does `w r m` to
the registers and flags, `r` being the byte written back. -/
structure RmwOp.Combines (op : RmwOp) (result : Bool → Byte → Byte) (w : Byte → Byte → View → View) : Prop where
  stored : ∀ m s, op.result m s = result s.fC m
  acts   : op.Acts (fun m v => w (result v.fC m) m v)

/-- Under `emulate` an instruction of the read-modify-write class stores its result at its operand, and combines the two bytes
into the registers and flags (R73, R122). -/
theorem RmwOp.Combines.row {op : RmwOp} {result : Bool → Byte → Byte} {w : Byte → Byte → View → View}
    (hop : op.Combines result w) {rows : Rows} {i : Instr} {s : State}
    (hrun : RowsRun rows .rmw modifyModes (fun m => addrWrite m ++ rmwTail op)) (hright : RowsRight rows)
    (hmem : Memory.wf s.mem = true) (hp : s.profile.policy = .emulate) (h : i.hasRow rows) :
    i.rowRight rows ∧ ∃ t, exec i s = .next t ∧ Completes i s t ∧ OperandModified i s t ∧
      t.busLatch = result s.fC t.dl ∧
      t.view = { w t.busLatch t.dl s.view with cells := s.afterStore t.ad t.busLatch s.stored } := by
  obtain ⟨t, ht, hc, ho, hb, hv⟩ := hop.acts.runs hrun (.inr hp) hmem h
  rw [hop.stored] at hb
  exact ⟨rowRight_of hright h, t, ht, hc, ho, hb, by rw [hv, hb]; rfl⟩

/-- SLO shifts left, and ors into A (R324). -/
theorem slo_combines : RmwOp.slo.Combines (fun _ m => BitVec.ofNat 8 (2 * m.toNat))
    (fun r m v => { v with a := v.a ||| r, fC := m.getLsbD 7 }.nz (v.a ||| r)) where
  stored m _ := aslResult_eq m
  acts _ _ := by simp only [← aslResult_eq]; rfl

/-- RLA rotates left, and ands into A (R325). -/
theorem rla_combines : RmwOp.rla.Combines (fun c m => BitVec.ofNat 8 (2 * m.toNat + flagNat c))
    (fun r m v => { v with a := v.a &&& r, fC := m.getLsbD 7 }.nz (v.a &&& r)) where
  stored m s := rolResult_eq m s.fC
  acts _ _ := by simp only [← rolResult_eq]; rfl

/-- SRE shifts right, and exclusive-ors into A (R326). -/
theorem sre_combines : RmwOp.sre.Combines (fun _ m => BitVec.ofNat 8 (m.toNat / 2))
    (fun r m v => { v with a := v.a ^^^ r, fC := m.getLsbD 0 }.nz (v.a ^^^ r)) where
  stored m _ := lsrResult_eq m
  acts _ _ := by simp only [← lsrResult_eq]; rfl

/-- Settles O47: the read-modify-write class, with the shift and the logic of each. -/
theorem shiftAndCombine : Obligations.ShiftAndCombine := by
  intro i s hmem hp
  exact ⟨slo_combines.row rowsSlo_run rowsSlo_right hmem hp,
    rla_combines.row rowsRla_run rowsRla_right hmem hp,
    sre_combines.row rowsSre_run rowsSre_right hmem hp⟩

/-- RRA rotates right, and adds to A with the bit rotated out as the carry (R327). -/
theorem rra_combines : RmwOp.rra.Combines (fun c m => BitVec.ofNat 8 (m.toNat / 2 + 128 * flagNat c))
    (fun r m v => { v with fC := m.getLsbD 0 }.adc r) where
  stored m s := rorResult_eq m s.fC
  acts m s := by
    simp only [← rorResult_eq]
    exact adcIntoA_view (rorResult m s.fC) { s with fC := m.getLsbD 0 }

/-- ISC increments, and subtracts from A (R331). -/
theorem isc_combines : RmwOp.isc.Combines (fun _ m => BitVec.ofNat 8 (m.toNat + 1)) (fun r _ v => v.sbc r) where
  stored m _ := add_one_eq m
  acts m s := by
    simp only [← add_one_eq]
    exact sbcIntoA_view (m + 1) s

/-- DCP decrements, and compares A (R330). -/
theorem dcp_combines :
    RmwOp.dcp.Combines (fun _ m => BitVec.ofNat 8 (m.toNat + 255)) (fun r _ v => v.compare v.a r) where
  stored m _ := sub_one_eq m
  acts _ _ := by simp only [← sub_one_eq]; rfl

/-- The bit rotated out, as a number. -/
theorem flagNat_getLsbD_zero (m : Byte) : flagNat (m.getLsbD 0) = m.toNat % 2 := by
  rw [BitVec.getLsbD, Nat.testBit_zero, flagNat]
  rcases Nat.mod_two_eq_zero_or_one m.toNat with h | h <;> simp [h]

/-- Settles O48: the read-modify-write class, with the step and the arithmetic of each. -/
theorem modifyAndCombineArithmetic : Obligations.ModifyAndCombineArithmetic := by
  intro i s hmem hp
  refine ⟨fun h => ?_, isc_combines.row rowsIsc_run rowsIsc_right hmem hp,
    dcp_combines.row rowsDcp_run rowsDcp_right hmem hp⟩
  obtain ⟨hr, t, ht, hc, ho, hb, hv⟩ := rra_combines.row rowsRra_run rowsRra_right hmem hp h
  have ha : t.a = BitVec.ofNat 8 (s.a.toNat + t.busLatch.toNat + flagNat (t.dl.getLsbD 0)) := congrArg View.a hv
  refine ⟨hr, t, ht, hc, ho, hb, ?_⟩
  rw [ha, ← flagNat_getLsbD_zero]
  exact hv

/-! ### Combined loads and stores (R328, R329, R337) -/

theorem lax_acts : ReadOp.lax.Acts (fun m v => { v with a := m, x := m }.nz m) := fun _ _ => rfl

theorem las_acts : ReadOp.las.Acts (fun m v =>
    { v with a := m &&& v.sp, x := m &&& v.sp, sp := m &&& v.sp }.nz (m &&& v.sp)) := fun _ _ => rfl

/-- Settles O49: the write class for SAX, and the read class for the loads. -/
theorem combinedLoadsAndStores : Obligations.CombinedLoadsAndStores := by
  intro i s hmem hp
  exact ⟨fun h => write_row rowsSax_run rowsSax_right h (.inr hp) hmem,
    lax_acts.row_emulate rowsLax_run rowsLax_right hp,
    las_acts.row_emulate rowsLas_run rowsLas_right hp⟩

/-! ### The immediate byte (R332 to R335) -/

/-- Every row is of the immediate mode. -/
def RowsImmediate (rows : Rows) : Prop := ∀ r ∈ rows, r.2.1 = .imm

theorem rowsAnc_immediate : RowsImmediate rowsAnc := by unfold RowsImmediate; decide
theorem rowsAlr_immediate : RowsImmediate rowsAlr := by unfold RowsImmediate; decide
theorem rowsArr_immediate : RowsImmediate rowsArr := by unfold RowsImmediate; decide
theorem rowsSbx_immediate : RowsImmediate rowsSbx := by unfold RowsImmediate; decide
theorem rowsAne_immediate : RowsImmediate rowsAne := by unfold RowsImmediate; decide
theorem rowsLxa_immediate : RowsImmediate rowsLxa := by unfold RowsImmediate; decide

/-- Under `emulate` an instruction of the read class in the immediate mode does what its operation does with the immediate
byte (R125). -/
theorem immediate_row {rows : Rows} {op : ReadOp} {i : Instr} {s : State}
    (hrun : RowsRun rows .read readModes (fun m => readSeq m op)) (hright : RowsRight rows)
    (himm : RowsImmediate rows) (hp : s.profile.policy = .emulate) (h : i.hasRow rows) :
    i.rowRight rows ∧ ∃ t f, exec i s = .next t ∧ Completes i s t ∧
      t.view = (op.apply i.operandLo (s.withFree f)).view := by
  obtain ⟨hr, t, f, ht, hc, ⟨hbyte, _⟩, hv⟩ := read_row hrun hright h (.inr hp)
  rw [hbyte (himm _ hr)] at hv
  exact ⟨hr, t, f, ht, hc, hv⟩

/-- The same, for an operation that changes the view alone. -/
theorem ReadOp.Acts.immediate_row {op : ReadOp} {w : Byte → View → View} (hop : op.Acts w) {rows : Rows} {i : Instr}
    {s : State} (hrun : RowsRun rows .read readModes (fun m => readSeq m op)) (hright : RowsRight rows)
    (himm : RowsImmediate rows) (hp : s.profile.policy = .emulate) (h : i.hasRow rows) :
    i.rowRight rows ∧ ∃ t, exec i s = .next t ∧ Completes i s t ∧ t.view = w i.operandLo s.view := by
  obtain ⟨hr, t, f, ht, hc, hv⟩ := Machine.immediate_row hrun hright himm hp h
  exact ⟨hr, t, ht, hc, by rw [hv, hop, withFree_view]⟩

theorem anc_acts : ReadOp.anc.Acts (fun m v => { v with a := v.a &&& m, fC := (v.a &&& m).msb }.nz (v.a &&& m)) :=
  fun _ _ => rfl

theorem alr_acts : ReadOp.alr.Acts (fun m v =>
    { v with a := BitVec.ofNat 8 ((v.a &&& m).toNat / 2), fC := (v.a &&& m).getLsbD 0 }.nz
      (BitVec.ofNat 8 ((v.a &&& m).toNat / 2))) := by
  intro m s
  simp only [← lsrResult_eq]
  rfl

/-- ARR with its result `r` in A (R334). -/
def View.arr (r : Byte) (v : View) : View :=
  { v with a := r, fC := r.getLsbD 6, fV := xor (r.getLsbD 6) (r.getLsbD 5) }.nz r

theorem arr_acts : ReadOp.arr.Acts (fun m v =>
    v.arr (BitVec.ofNat 8 ((v.a &&& m).toNat / 2 + 128 * flagNat v.fC))) := by
  intro m s
  simp only [← rorResult_eq]
  rfl

theorem sbx_acts : ReadOp.sbx.Acts (fun m v =>
    { v with x := (v.a &&& v.x) - m, fC := decide (m.toNat ≤ (v.a &&& v.x).toNat) }.nz ((v.a &&& v.x) - m)) :=
  fun _ _ => rfl

/-- Settles O50: the immediate mode of the read class, with the operation of each. -/
theorem immediateCombinations : Obligations.ImmediateCombinations := by
  intro i s hp
  refine ⟨anc_acts.immediate_row rowsAnc_run rowsAnc_right rowsAnc_immediate hp,
    alr_acts.immediate_row rowsAlr_run rowsAlr_right rowsAlr_immediate hp, fun h => ?_,
    sbx_acts.immediate_row rowsSbx_run rowsSbx_right rowsSbx_immediate hp⟩
  obtain ⟨hr, t, ht, hc, hv⟩ := arr_acts.immediate_row rowsArr_run rowsArr_right rowsArr_immediate hp h
  have ha : t.a = BitVec.ofNat 8 ((s.a &&& i.operandLo).toNat / 2 + 128 * flagNat s.fC) := congrArg View.a hv
  exact ⟨hr, t, ht, hc, ha, by rw [ha]; exact hv⟩

/-! ### The unstable constants (R338, R339) -/

/-- What is or-ed in before a mask adds bits only. -/
theorem masked_or_part (a g k : Byte) : (a ||| g) &&& k ||| a &&& k = (a ||| g) &&& k := by
  ext j
  simp only [BitVec.getElem_or, BitVec.getElem_and]
  cases a[j] <;> simp

/-- The formula of ANE and LXA, with the mask `k`: its value with the constant the profile has, and its bounds whatever free
byte stands for the constant (R338, R339). -/
theorem magic_formula {magic : Option Byte} {free a k r : Byte} (hr : r = (a ||| magic.getD free) &&& k) :
    (∀ c, magic = some c → r = (a ||| c) &&& k) ∧ r &&& k = r ∧ r ||| a &&& k = r := by
  refine ⟨fun c hc => by rw [hr, hc]; rfl, ?_, ?_⟩
  · rw [hr, BitVec.and_assoc, BitVec.and_self]
  · rw [hr, masked_or_part]

/-- Settles O51: the immediate mode of the read class, with the constant or a free byte in the formula; ANE's mask is X and the
immediate byte, LXA's the immediate byte. -/
theorem unstableConstants : Obligations.UnstableConstants := by
  intro i s hp
  constructor <;> intro h
  · obtain ⟨hr, t, f, ht, hc, hv⟩ := immediate_row rowsAne_run rowsAne_right rowsAne_immediate hp h
    have ha : t.a = (s.a ||| s.profile.aneMagic.getD (Config.freeByte f)) &&& s.x &&& i.operandLo := congrArg View.a hv
    have hview : t.view = { s.view with a := t.a }.nz t.a := by rw [ha]; exact hv
    rw [BitVec.and_assoc] at ha
    obtain ⟨hformula, hupper, hlower⟩ := magic_formula ha
    refine ⟨hr, t, ht, hc, fun magic hm => ?_, hupper, ?_, hview⟩
    · rw [BitVec.and_assoc]; exact hformula magic hm
    · rw [BitVec.and_assoc]; exact hlower
  · obtain ⟨hr, t, f, ht, hc, hv⟩ := immediate_row rowsLxa_run rowsLxa_right rowsLxa_immediate hp h
    have ha : t.a = (s.a ||| s.profile.lxaMagic.getD (Config.freeByte f)) &&& i.operandLo := congrArg View.a hv
    obtain ⟨hformula, hupper, hlower⟩ := magic_formula ha
    exact ⟨hr, t, ht, hc, hformula, hupper, hlower, by rw [ha]; exact hv⟩

/-! ### The unstable stores (R340 to R344) -/

/-- Settles O52: the unstable stores of the write class, with the register value of each. -/
theorem unstableStores : Obligations.UnstableStores := by
  intro i s rows value sp hmem hp hmember h
  simp only [List.mem_cons, List.not_mem_nil, or_false, Prod.mk.injEq] at hmember
  rcases hmember with ⟨rfl, rfl, rfl⟩ | ⟨rfl, rfl, rfl⟩ | ⟨rfl, rfl, rfl⟩ | ⟨rfl, rfl, rfl⟩
  · exact unstable_row (op := .sha) rowsSha_run rowsSha_right h (.inr hp) hmem
  · exact unstable_row (op := .shx) rowsShx_run rowsShx_right h (.inr hp) hmem
  · exact unstable_row (op := .shy) rowsShy_run rowsShy_right h (.inr hp) hmem
  · exact unstable_row (op := .tas) rowsTas_run rowsTas_right h (.inr hp) hmem

end Sys2Proof.Machine
end

section
/-! Every step goes on (60_exceptions.md R370, R371): the decoder decodes what is fetched, and exec has a meaning for it. -/

namespace Sys2Proof.Machine

/-- Every sequence has a next state: three bytes always decode, and every instruction runs. -/
theorem runSequence_goesOn (s : State) : ∃ t, runSequence s = .next t := by
  by_cases hh : s.halted = true
  · exact ⟨_, if_pos hh⟩
  by_cases hq : s.seq = .fetch
  · exact ⟨_, runSequence_begin hq (by simpa using hh)⟩
  · exact ⟨runOps s.queue [] s, by rw [runSequence, if_neg hh, if_pos hq]⟩

theorem tick_goesOn (s : State) : ∃ t, tick s = .next t := by
  by_cases hp : s.runState = .paused
  · exact ⟨s, if_pos hp⟩
  · obtain ⟨u, hu⟩ := runSequence_goesOn s
    exact ⟨_, tick_of_runSequence hp hu⟩

theorem perform_goesOn (c : Command) (s : State) : ∃ t, perform c s = .next t := by
  cases c
  case stepInstruction => exact tick_goesOn _
  all_goals exact ⟨_, rfl⟩

theorem command_goesOn (c : Command) (s : State) : ∃ t, command c s = .next t := by
  unfold command
  split
  · exact ⟨s, rfl⟩
  · exact perform_goesOn c s

/-- Settles O9: the host's next step is a command or a tick, and each goes on. -/
theorem everyStepGoesOn : Obligations.EveryStepGoesOn := by
  intro s
  unfold State.goesOn
  cases hc : nextCommand s with
  | none => exact step_tick hc ▸ tick_goesOn _
  | some c => exact step_command hc ▸ command_goesOn c _

end Sys2Proof.Machine
end

section
/-! The boundary check (60_exceptions.md R403, R404, R407): the case of it that applies, one lemma for each. -/

namespace Sys2Proof.Machine

/-! ### The case that applies -/

/-- A fault comes first (R404). -/
theorem boundaryStop_of_fault {u : State} (h : u.fault ≠ none) : boundaryStop u = some .fault :=
  if_pos (Option.isSome_iff_ne_none.mpr h)

section
variable {u : State} (hf : u.fault = none)
include hf

/-- Then a finished step (R404, R405). -/
theorem boundaryStop_of_stepping (hs : u.runState = .steppingInstruction) : boundaryStop u = some .stepDone := by
  simp [boundaryStop, hf, hs]

/-- Then a pause (R402, R404). -/
theorem boundaryStop_of_pause (hs : u.runState ≠ .steppingInstruction) (hp : u.pauseRequested = true) :
    boundaryStop u = some .command := by
  simp [boundaryStop, hf, hs, hp]

/-- Then a finished frame (R404, R406). -/
theorem boundaryStop_of_frame (hp : u.pauseRequested = false) (hs : u.runState = .steppingFrame)
    (hfr : u.frameSeen = true) : boundaryStop u = some .frameDone := by
  simp [boundaryStop, hf, hp, hs, hfr]

/-- Else the breakpoints decide, where an opcode fetch is next (R404). -/
theorem boundaryStop_of_breakpoints (hp : u.pauseRequested = false) (hs : u.runState ≠ .steppingInstruction)
    (hfr : ¬ (u.runState = .steppingFrame ∧ u.frameSeen = true)) :
    boundaryStop u =
      if u.halted = false ∧ u.intNext = .none then
        (u.breakpoints.find? fun b => b.hits u).map fun b => .breakpoint b.id
      else none := by
  simp only [boundaryStop, hf, hs, hp, if_neg hfr]
  simp

end

/-! ### Breakpoints -/

/-- An enabled breakpoint at PC whose condition, if it has one, holds is a hit (R404). -/
theorem hits_of_enabled {b : Breakpoint} {u : State} (he : b.enabled = true) (ha : b.address = u.pc)
    (hc : ∀ c, b.condition = some c → Config.conditionHolds c (view u) = true) : b.hits u = true := by
  cases hb : b.condition with
  | none => simp [Breakpoint.hits, he, ha, hb]
  | some c => simp [Breakpoint.hits, he, ha, hb, hc c hb]

/-- A breakpoint that is disabled, elsewhere, or has a false condition is no hit (R404). -/
theorem not_hits {b : Breakpoint} {u : State} (h : b.enabled = false ∨ b.address ≠ u.pc ∨
    ∃ c, b.condition = some c ∧ Config.conditionHolds c (view u) = false) : ¬ b.hits u = true := by
  rcases h with h | h | ⟨c, hb, hc⟩
  · simp [Breakpoint.hits, h]
  · simp [Breakpoint.hits, h]
  · simp [Breakpoint.hits, hb, hc]

/-! ### What the check leaves -/

/-- Where a case applies the check pauses with its reason, and a pause alone takes the request (R404). -/
theorem boundaryCheck_of_stop {u : State} {r : StopReason} (h : boundaryStop u = some r) :
    (boundaryCheck u).runState = .paused ∧ (boundaryCheck u).stopReason = r ∧
      (boundaryCheck u).pauseRequested = if r = .command then false else u.pauseRequested := by
  simp [boundaryCheck, runStateAfter, h]

/-- Where none applies the state is as it was. -/
theorem boundaryCheck_of_no_stop {u : State} (h : boundaryStop u = none) : boundaryCheck u = u := by
  simp [boundaryCheck, runStateAfter, h]

/-- Settles O56: each clause is the case of the check that applies, and what the check then leaves. -/
theorem boundaryCheckStopsInOrder : Obligations.BoundaryCheckStopsInOrder := by
  intro u
  refine ⟨rfl, fun hf => ?_, fun hf hs => ?_, fun hf hs hp => ?_, fun hf hp hs hfr => ?_, fun hf hp hs hfr => ⟨?_, ?_⟩⟩
  · exact boundaryCheck_of_stop (boundaryStop_of_fault hf)
  · exact boundaryCheck_of_stop (boundaryStop_of_stepping hf hs)
  · exact boundaryCheck_of_stop (boundaryStop_of_pause hf hs hp)
  · exact hp ▸ boundaryCheck_of_stop (boundaryStop_of_frame hf hp hs hfr)
  · intro before b after hh hi hbs he ha hc hbefore
    have hfind : u.breakpoints.find? (fun b => b.hits u) = some b := List.find?_eq_some_iff_append.mpr
      ⟨hits_of_enabled he ha hc, before, after, hbs, fun e hm => by simpa using not_hits (hbefore e hm)⟩
    have hstop : boundaryStop u = some (.breakpoint b.id) := by
      rw [boundaryStop_of_breakpoints hf hp hs hfr, if_pos ⟨hh, hi⟩, hfind]
      rfl
    exact hp ▸ boundaryCheck_of_stop hstop
  · intro h
    refine boundaryCheck_of_no_stop ?_
    rw [boundaryStop_of_breakpoints hf hp hs hfr]
    split
    · next hnext =>
      obtain ⟨hh, hi⟩ := hnext
      have hnone : ∀ e ∈ u.breakpoints, ¬ e.hits u = true := fun e hm =>
        not_hits (((h.resolve_left (by simp [hh])).resolve_left (not_not_intro hi)) e hm)
      rw [List.find?_eq_none.mpr hnone]
      rfl
    · rfl

end Sys2Proof.Machine
end

section
/-! The commands that run, step and pause (60_exceptions.md R400 to R406), and those that are CallerMisuse (R377). -/

namespace Sys2Proof.Machine

/-! ### Run, step and pause -/

/-- No sequence changes the Run State. -/
theorem runSequence_runState {s t : State} (h : runSequence s = .next t) : t.runState = s.runState := by
  rcases runSequence_cases h with ⟨_, rfl⟩ | ⟨_, _, rfl⟩ | ⟨_, _, rfl⟩ | ⟨_, _, op, bytes, rfl⟩
  · rfl
  · exact runOps_runState ..
  · exact runOps_runState ..
  · exact runOps_runState ..

/-- A sequence run as a step of one instruction pauses the machine, for its fault if it has one (R404, R405). -/
theorem boundaryStop_of_stepped {u : State} (h : u.runState = .steppingInstruction) :
    boundaryStop u = some (if u.fault = none then .stepDone else .fault) := by
  split
  · next hf => exact boundaryStop_of_stepping hf h
  · next hf => exact boundaryStop_of_fault hf

/-- Settles O57: each command is accepted and is one update of the state; a step of one instruction also ticks once. -/
theorem runStepAndPauseCommands : Obligations.RunStepAndPauseCommands := by
  intro s
  refine ⟨fun hp hc => step_perform hc (if_pos hp), fun hp hc => step_perform hc (if_pos hp), fun hp hc => ?_,
    fun hp hc => ?_, fun hr hc => ?_⟩
  · obtain ⟨u, hu⟩ := runSequence_goesOn (startRun .steppingInstruction (scriptTaken s))
    obtain ⟨hpaused, hreason, _⟩ := boundaryCheck_of_stop (boundaryStop_of_stepped (runSequence_runState hu))
    refine ⟨u, boundaryCheck u, hu, ?_, hpaused, hreason, boundaryCheck_view u, rfl, rfl⟩
    rw [step_perform hc (if_pos hp)]
    exact tick_of_runSequence RunState.noConfusion hu
  · rcases hc with hc | hc
    · have hpause : requestPause (scriptTaken s) = scriptTaken s := by simp [requestPause, scriptTaken, hp]
      rw [step_perform hc rfl, perform, hpause]
    · exact (step_tick hc).trans (if_pos hp)
  · have hpause : requestPause (scriptTaken s) = { scriptTaken s with pauseRequested := true } := by
      simp [requestPause, scriptTaken, hr]
    rw [step_perform hc rfl, perform, hpause]

/-! ### CallerMisuse (R377) -/

/-- A command refused as CallerMisuse changes nothing but the host's script, and answers its code (R377, R378). -/
theorem step_of_misuse {c : Command} {s : State} {cause : Cause} (hc : nextCommand s = some c)
    (h : misuse c s = some cause) : step s = .next (scriptTaken s) ∧ respond c s = .misuse cause.code := by
  have hm : misuse c (scriptTaken s) = some cause := by rw [← h]; cases c <;> rfl
  exact ⟨by rw [step_command hc, command, hm], by simp only [respond, h]⟩

/-- Settles O58: each such command is refused, for its cause. -/
theorem misusedCommandsChangeNothing : Obligations.MisusedCommandsChangeNothing := by
  intro s c hc
  refine ⟨fun hr hpause hadd hremove => step_of_misuse (cause := .notPaused) hc ?_, fun id hid hb => ?_⟩
  · cases c
    case pause => exact absurd rfl hpause
    case addBreakpoint => exact absurd rfl (hadd _ _)
    case removeBreakpoint => exact absurd rfl (hremove _)
    all_goals exact if_neg hr
  · subst hid
    exact step_of_misuse (cause := .badBreakpointId) hc (if_neg (by simpa using hb))

end Sys2Proof.Machine
end

section
/-! The validation of a hardware profile (60_exceptions.md R376). -/

namespace Sys2Proof.Machine

/-- A policy's name is accepted if it is one of the two (R376). -/
theorem parsePolicy_eq_none {name : String} : parsePolicy name = none ↔ ¬ (name = "trap" ∨ name = "emulate") := by
  unfold parsePolicy
  split
  · next h => simp [h]
  · next h =>
    split
    · next h' => simp [h']
    · next h' => simp [h, h']

/-- An entry that is a range is well formed if its period divides its length (R376). -/
theorem region_wellFormed_iff {r : Region} (h : r.first ≤ r.last) :
    Region.wellFormed r = true ↔ r.period ≠ 0 ∧ r.period ∣ r.last + 1 - r.first := by
  simp [Region.wellFormed, h, Nat.pos_iff_ne_zero, Nat.dvd_iff_mod_eq_zero]

/-- Two entries overlap unless one ends before the other begins (R376). -/
theorem overlaps_eq_false_iff {r q : Region} : Region.overlaps r q = false ↔ r.last < q.first ∨ q.last < r.first := by
  simp only [Region.overlaps, Bool.and_eq_false_iff, decide_eq_false_iff_not]
  omega

/-- A map of ranges is well formed if every period divides its range's length and no two entries overlap (R376). -/
theorem mapWellFormed_iff {map : List Region} (h : ∀ e ∈ map, e.first ≤ e.last) :
    mapWellFormed map = true ↔ (∀ e ∈ map, e.period ≠ 0 ∧ e.period ∣ e.last + 1 - e.first) ∧
      map.Pairwise (fun e f => e.last < f.first ∨ f.last < e.first) := by
  induction map with
  | nil => simp [mapWellFormed]
  | cons r rs ih =>
    obtain ⟨hr, hrs⟩ := List.forall_mem_cons.mp h
    simp only [mapWellFormed, Bool.and_eq_true, List.all_eq_true, Bool.not_eq_true', overlaps_eq_false_iff,
      region_wellFormed_iff hr, ih hrs, List.forall_mem_cons, List.pairwise_cons]
    tauto

/-- A profile is accepted if none of the checks of R376 rejects it. -/
theorem validate_ok_iff (r : RawProfile) :
    (∃ p, validate r = .ok p) ↔ (0 < r.ratioP ∧ 0 < r.ratioQ) ∧ parsePolicy r.policy ≠ none ∧
      mapWellFormed r.map = true ∧ r.vecNmi ≠ none ∧ r.vecReset ≠ none ∧ r.vecIrq ≠ none := by
  unfold validate
  split
  · next h =>
    have hratio : ¬ (0 < r.ratioP ∧ 0 < r.ratioQ) := by omega
    simp [hratio]
  · next h =>
    have hratio : 0 < r.ratioP ∧ 0 < r.ratioQ := by omega
    split
    · next hp => simp [hp]
    · next policy hp =>
      split
      · next hm => simp [hm]
      · next hm =>
        split
        · next nmi reset irq hn hs hi => simp [hratio, hp, hm, hn, hs, hi]
        · next hnone =>
          refine iff_of_false (by simp) ?_
          rintro ⟨-, -, -, hn, hs, hi⟩
          obtain ⟨n, hn⟩ := Option.ne_none_iff_exists'.mp hn
          obtain ⟨v, hs⟩ := Option.ne_none_iff_exists'.mp hs
          obtain ⟨q, hi⟩ := Option.ne_none_iff_exists'.mp hi
          exact hnone n v q hn hs hi

/-- Settles O16: the checks of `validate` are the causes of R376, and the ratio's comes first. -/
theorem profileValidationIsTheSpecs : Obligations.ProfileValidationIsTheSpecs := by
  intro r hranges
  refine ⟨?_, fun h => if_pos h⟩
  rw [validate_ok_iff, mapWellFormed_iff hranges, ne_eq, parsePolicy_eq_none, not_not]
  tauto

end Sys2Proof.Machine
end

section
/-! The clock (60_exceptions.md R412 to R414): the PPU's steps and the fraction carried over any number of cycles, whatever
makes the cycles; and the interrupt inputs as each of them leaves them (R381, R382, R388). -/

namespace Sys2Proof.Machine

/-! ### A call of `step_cycle()` -/

/-- A call of `step_cycle()` that is not stalled has a cycle to make: of the halted state, of a sequence that begins, or of the
one that runs. -/
def State.CanCycle (s : State) : Prop := s.halted = true ∨ s.seq = .fetch ∨ s.queue ≠ []

/-- No sequence begins with the cycle of the vector decision (R390). -/
theorem beginSequence_head_ne (s : State) : (beginSequence s).queue.head? ≠ some .pushLoVec := by
  rw [beginSequence_queue]
  split
  · decide
  unfold sequenceOf
  split
  · decide
  · rcases emulatedSequence_head (busValue s.pc s) with h | h <;> rw [h] <;> decide

/-- What a call of `step_cycle()` that is not stalled does (R120). -/
theorem stepCycle_cases {s : State} (hst : Unstalled s) (h : s.CanCycle) :
    (s.halted = true ∧ stepCycle s = haltedCycle s) ∨
    (s.halted = false ∧ s.seq = .fetch ∧
      ∃ u us, u ≠ .pushLoVec ∧ stepCycle s = cycle u us none (beginSequence s)) ∨
    (s.halted = false ∧ s.seq ≠ .fetch ∧ ∃ u us, s.queue = u :: us ∧ stepCycle s = cycle u us none s) := by
  cases hh : s.halted
  case true =>
    exact .inl ⟨rfl, by rw [stepCycle_of_unstalled hst, unstalledCycle, if_pos hh]⟩
  case false =>
    refine .inr ?_
    by_cases hseq : s.seq = .fetch
    · obtain ⟨u, us, hq, _⟩ := beginSequence_head s
      have hne : u ≠ .pushLoVec := fun he => beginSequence_head_ne s (by rw [hq, he]; rfl)
      refine .inl ⟨rfl, hseq, u, us, hne, ?_⟩
      rw [stepCycle_begin hst hseq hh, stepCycle_of_inside hst.begin (beginSequence_inside hh) hq]
    · have hne : s.queue ≠ [] := (h.resolve_left (by simp [hh])).resolve_left hseq
      obtain ⟨u, us, hq⟩ := List.exists_cons_of_ne_nil hne
      exact .inr ⟨rfl, hseq, u, us, hq, stepCycle_of_inside hst ⟨hseq, hh⟩ hq⟩

/-- After a cycle there is one to make: another of its sequence, or one from the boundary. -/
theorem canCycle_cycle (u : MicroOp) (us : List MicroOp) (v : Option Byte) (s : State) : (cycle u us v s).CanCycle := by
  by_cases hr : remaining us (cycle u us v s) = 0
  · have hseq := (cycle_ends u us v s hr).1
    cases hh : (cycle u us v s).halted
    case true => exact .inl hh
    case false => exact .inr (.inl (by simpa [hh] using hseq))
  · refine .inr (.inr fun hq => hr ?_)
    rw [cycle_queue, List.dropWhile_eq_nil_iff] at hq
    exact List.length_eq_zero_iff.mpr (List.filter_eq_nil_iff.mpr fun w hw => by simpa using hq w hw)

theorem canCycle_stepCycle {s : State} (hst : Unstalled s) (h : s.CanCycle) : (stepCycle s).CanCycle := by
  rcases stepCycle_cases hst h with ⟨hh, he⟩ | ⟨_, _, u, us, _, he⟩ | ⟨_, _, u, us, _, he⟩ <;> rw [he]
  · exact .inl hh
  · exact canCycle_cycle ..
  · exact canCycle_cycle ..

theorem Unstalled.stepCycle {s : State} (hst : Unstalled s) (h : s.CanCycle) : Unstalled (stepCycle s) := by
  rcases stepCycle_cases hst h with ⟨_, he⟩ | ⟨_, _, u, us, _, he⟩ | ⟨_, _, u, us, _, he⟩ <;> rw [he]
  · exact fun e hm => hst e (List.mem_of_mem_tail hm)
  · exact hst.begin.cycle _ _ _
  · exact hst.cycle _ _ _

/-- At a boundary there is a cycle to make. -/
theorem State.AtBoundary.canCycle {s : State} (h : s.AtBoundary) : s.CanCycle := by
  cases hh : s.halted
  case true => exact .inl hh
  case false => exact .inr (.inl (by simpa [hh] using h.seq_eq))

/-! ### The ratio (R412, R413) -/

/-- From `s` to `t` the clock has run `n` cycles: with `a0` carried at `s`, the PPU has made `(a0 + n*p) div q` steps and
`(a0 + n*p) mod q` is carried. -/
structure Clocked (n : Nat) (s t : State) : Prop where
  profile : t.profile = s.profile
  cycles  : t.cycles = s.cycles + n
  steps   : t.ppuSteps = s.ppuSteps + (s.ppuAcc + n * s.profile.ratioP) / s.profile.ratioQ
  acc     : t.ppuAcc = (s.ppuAcc + n * s.profile.ratioP) % s.profile.ratioQ

/-- The steps of a number and then of a second, with the remainder carried, are the steps of their sum. -/
theorem div_add_mod_add_div (x y q : Nat) : x / q + (x % q + y) / q = (x + y) / q := by
  rcases Nat.eq_zero_or_pos q with rfl | hq
  · simp
  · calc x / q + (x % q + y) / q = (q * (x / q) + (x % q + y)) / q := (Nat.mul_add_div hq _ _).symm
      _ = (x + y) / q := by rw [← Nat.add_assoc, Nat.div_add_mod]

theorem Clocked.trans {m n : Nat} {s w t : State} (h : Clocked m s w) (k : Clocked n w t) : Clocked (m + n) s t where
  profile := k.profile.trans h.profile
  cycles := by rw [k.cycles, h.cycles, Nat.add_assoc]
  steps := by
    rw [k.steps, h.steps, h.acc, h.profile, Nat.add_assoc, div_add_mod_add_div, Nat.add_assoc, ← Nat.add_mul]
  acc := by rw [k.acc, h.acc, h.profile, Nat.mod_add_mod, Nat.add_assoc, ← Nat.add_mul]

/-- No cycle has run where the clock stands as it stood, with a fraction carried. -/
theorem Clocked.start {s w : State} (h : s.ppuAcc < s.profile.ratioQ) (hp : w.profile = s.profile)
    (hc : w.cycles = s.cycles) (hs : w.ppuSteps = s.ppuSteps) (ha : w.ppuAcc = s.ppuAcc) : Clocked 0 s w where
  profile := hp
  cycles := hc
  steps := by rw [hs, Nat.zero_mul, Nat.add_zero, Nat.div_eq_of_lt h, Nat.add_zero]
  acc := by rw [ha, Nat.zero_mul, Nat.add_zero, Nat.mod_eq_of_lt h]

theorem clocked_cycle (u : MicroOp) (us : List MicroOp) (v : Option Byte) (s : State) :
    Clocked 1 s (cycle u us v s) := by
  constructor <;> simp

theorem clocked_haltedCycle (s : State) : Clocked 1 s (haltedCycle s) := by
  constructor <;> simp [haltedCycle, ppuStepsNow]

/-- What a sequence runs from a start that has not run the clock. -/
theorem clocked_runOps {s w : State} (h : Clocked 0 s w) (ops : List MicroOp) (bytes : List Byte) :
    ∃ n, Clocked n s (runOps ops bytes w) :=
  runOps_keeps (P := fun r => ∃ n, Clocked n s r)
    (fun _ _ _ _ ⟨n, hn⟩ => ⟨n + 1, hn.trans (clocked_cycle ..)⟩) ops bytes w ⟨0, h⟩

section
variable {s t : State} (hacc : s.ppuAcc < s.profile.ratioQ)
include hacc

theorem clocked_runSequence (h : runSequence s = .next t) : ∃ n, Clocked n s t := by
  rcases runSequence_cases h with ⟨_, rfl⟩ | ⟨_, _, rfl⟩ | ⟨_, _, rfl⟩ | ⟨_, _, op, bytes, rfl⟩
  · exact ⟨1, clocked_haltedCycle s⟩
  · exact clocked_runOps (.start hacc rfl rfl rfl rfl) _ _
  · exact clocked_runOps (w := { s with seq := .interrupt, t := 1, bflag := false }) (.start hacc rfl rfl rfl rfl)
      entryOps []
  · exact clocked_runOps (w := startInstr s) (.start hacc rfl rfl rfl rfl) _ _

theorem clocked_tick (h : tick s = .next t) : ∃ n, Clocked n s t := by
  rcases tick_cases h with ⟨_, rfl⟩ | ⟨_, u, hu, rfl⟩
  · exact ⟨0, .start hacc rfl rfl rfl rfl⟩
  · obtain ⟨n, hn⟩ := clocked_runSequence hacc hu
    exact ⟨n, hn.profile, hn.cycles, hn.steps, hn.acc⟩

/-- A command runs the clock only for the cycles of its sequence (R405, R430; log 38). -/
theorem clocked_command {c : Command} (h : command c s = .next t) : ∃ n, Clocked n s t := by
  rcases command_cases h with rfl | ⟨_, hp⟩
  · exact ⟨0, .start hacc rfl rfl rfl rfl⟩
  cases c
  case stepInstruction =>
    obtain ⟨n, hn⟩ := clocked_tick (s := startRun .steppingInstruction s) hacc hp
    exact ⟨n, hn.profile, hn.cycles, hn.steps, hn.acc⟩
  all_goals obtain rfl := Host.Outcome.next.inj hp
  case reset =>
    obtain ⟨n, hn⟩ := clocked_runOps (w := startReset s) (.start hacc rfl rfl rfl rfl) resetOps []
    exact ⟨n, hn.profile, hn.cycles, hn.steps, hn.acc⟩
  all_goals exact ⟨0, .start hacc rfl rfl rfl rfl⟩

theorem clocked_step (h : step s = .next t) : ∃ n, Clocked n s t := by
  have hscript : ∃ n, Clocked n (scriptTaken s) t := by
    rcases step_cases h with ⟨c, _, hc⟩ | ⟨_, ht⟩
    · exact clocked_command (s := scriptTaken s) hacc hc
    · exact clocked_tick (s := scriptTaken s) hacc ht
  obtain ⟨n, hn⟩ := hscript
  exact ⟨n, hn.profile, hn.cycles, hn.steps, hn.acc⟩

end

/-- A call of `step_cycle()` runs the clock once, where a sequence begins too. -/
theorem clocked_stepCycle {s : State} (hst : Unstalled s) (h : s.CanCycle) : Clocked 1 s (stepCycle s) := by
  rcases stepCycle_cases hst h with ⟨_, he⟩ | ⟨_, _, u, us, _, he⟩ | ⟨_, _, u, us, _, he⟩ <;> rw [he]
  · exact clocked_haltedCycle s
  · have hc := clocked_cycle u us none (beginSequence s)
    have hsame : (beginSequence s).profile = s.profile ∧ (beginSequence s).cycles = s.cycles ∧
        (beginSequence s).ppuSteps = s.ppuSteps ∧ (beginSequence s).ppuAcc = s.ppuAcc := by
      unfold beginSequence
      split <;> exact ⟨rfl, rfl, rfl, rfl⟩
    obtain ⟨hp, hcy, hs, ha⟩ := hsame
    exact ⟨hc.profile.trans hp, hcy ▸ hc.cycles, hp ▸ hs ▸ ha ▸ hc.steps, hp ▸ ha ▸ hc.acc⟩
  · exact clocked_cycle ..

theorem clocked_runCycles (n : Nat) {s : State} (hacc : s.ppuAcc < s.profile.ratioQ) (hst : Unstalled s)
    (h : s.CanCycle) : Clocked n s (runCycles n s) := by
  induction n generalizing s with
  | zero => exact .start hacc rfl rfl rfl rfl
  | succ n ih =>
    have hone := clocked_stepCycle hst h
    have hacc' : (stepCycle s).ppuAcc < (stepCycle s).profile.ratioQ := by
      rw [hone.acc, hone.profile]
      exact Nat.mod_lt _ (Nat.zero_lt_of_lt hacc)
    have hall := hone.trans (ih hacc' (hst.stepCycle h) (canCycle_stepCycle hst h))
    rwa [Nat.add_comm] at hall

/-- Settles O20: every cycle adds `p` to the fraction and carries it out by `q`, and only cycles run the clock. -/
theorem clockRatioIsExact : Obligations.ClockRatioIsExact := by
  refine ⟨fun s n hinv hst => ?_, fun s t hinv h => ?_⟩
  · have hc := clocked_runCycles n hinv.acc_lt hst hinv.boundary.canCycle
    exact ⟨hc.cycles, hc.steps, hc.acc⟩
  · obtain ⟨n, hn⟩ := clocked_step hinv.acc_lt h
    exact ⟨n, hn.cycles, hn.steps, hn.acc⟩

/-! ### The inputs at the end of a cycle (R382) -/

theorem SameInputs.refl (s : State) : SameInputs s s := ⟨rfl, rfl, rfl, rfl, rfl, rfl, rfl⟩

theorem sameInputs_beginSequence (s : State) : SameInputs s (beginSequence s) := by
  unfold beginSequence
  split <;> exact ⟨rfl, rfl, rfl, rfl, rfl, rfl, rfl⟩

/-- A state that has sampled once more has the NMI edge pending that the sampling found (R382). -/
theorem SameInputs.edge {s w : State} (h : SameInputs (Machine.sampled 1 s) w) :
    w.nmiPending = (s.nmiPending || (nmiLine w && !s.nmiPrev)) := by
  rw [h.nmiPending, nmiLine_congr h.profile h.ppuLine]
  rfl

/-- Settles O21: each call of `step_cycle()` makes one cycle, and every cycle samples the inputs at its end. -/
theorem inputsAreSampledEveryCycle : Obligations.InputsAreSampledEveryCycle := by
  intro s h hst
  rcases stepCycle_cases hst h with ⟨hh, he⟩ | ⟨_, hseq, u, us, hu, he⟩ | ⟨hh, hseq, u, us, hq, he⟩ <;> rw [he]
  · exact ⟨rfl, rfl, fun _ => rfl, fun hf => absurd hh (by simp [hf])⟩
  · obtain ⟨hprev, hirq⟩ := cycle_samples u us none (beginSequence s)
    have hin := SameInputs.cycle (n := 0) (sameInputs_beginSequence s) hu us none
    exact ⟨hprev, hirq, fun _ => hin.edge, fun _ hf => absurd hseq hf⟩
  · obtain ⟨hprev, hirq⟩ := cycle_samples u us none s
    refine ⟨hprev, hirq, fun hor => ?_, fun _ _ hvec => ?_⟩
    · have hu : u ≠ .pushLoVec := fun hu =>
        (hor.resolve_left (by simp [hh])).resolve_left hseq (by rw [hq, hu]; rfl)
      exact (SameInputs.cycle (n := 0) (.refl s) hu us none).edge
    · obtain rfl : u = .pushLoVec := by simpa [hq] using hvec
      exact (SameInputs.decides (n := 0) (.refl s) us none).1.nmiPending

end Sys2Proof.Machine
end

section
/-! Taking an interrupt (60_exceptions.md R388 to R396): the entry's own two cycles, then those that it shares with BRK. -/

namespace Sys2Proof.Machine

theorem entryStart_reads : MicroOp.entryStart.Reads 0 (fun _ v => v) :=
  ⟨by decide, by decide, fun _ _ => (BitVec.add_zero _).symm, fun _ _ => rfl⟩

theorem dummyPC_reads : MicroOp.dummyPC.Reads 0 (fun _ v => v) :=
  ⟨by decide, by decide, fun _ _ => (BitVec.add_zero _).symm, fun _ _ => rfl⟩

/-- The entry's own two cycles leave the view, and no interrupt next (R390 T1, T2). -/
theorem entry_started {s r : State} (h : RunsTo s r 0 0 s.view []) (hin : SameInputs s r) (hseq : r.seq ≠ .instr) :
    ∃ w log, runOps entryOps [] r = runOps entryTail [] w ∧ RunsTo s w 0 2 s.view log ∧ SameInputs (sampled 2 s) w ∧
      w.bflag = r.bflag ∧ (runOps entryOps [] r).intNext = .none := by
  obtain ⟨x, hx⟩ : ∃ x, x = cycle .entryStart (.dummyPC :: entryTail) none r := ⟨_, rfl⟩
  have h1 := hx ▸ h.read entryStart_reads rfl (.dummyPC :: entryTail) none
  have h2 := h1.read dummyPC_reads rfl entryTail none
  have hin1 := hx ▸ SameInputs.cycle (n := 0) hin (u := .entryStart) (by decide) (.dummyPC :: entryTail) none
  have hrun : runOps entryOps [] r = runOps (.dummyPC :: entryTail) [] x := by
    rw [hx, ← runOps_cons_nil rfl]
    rfl
  have hcleared : x = cycle .entryStart (.dummyPC :: entryTail) none { r with intNext := .none } := hx
  have hnext : x.intNext = .none ∧ x.seq ≠ .instr := hcleared ▸ cycle_intNext_none _ _ _ ⟨rfl, hseq⟩
  refine ⟨_, _, hrun.trans (runOps_cons_nil rfl), h2, hin1.cycle (by decide) _ _, ?_, ?_⟩
  · simp [hx, cycle_bflag, MicroOp.act]
  · rw [hrun]
    exact runOps_intNext_none _ _ hnext.1 hnext.2

/-- An interrupt entry does what R390 says, with B clear (R391). -/
theorem takeInterrupt_enters {s : State} (hm : Memory.wf s.mem = true) :
    Enters s (takeInterrupt s) s.pc false ∧ (takeInterrupt s).intNext = .none := by
  obtain ⟨w, log, hrun, hw, hin, hb, hnext⟩ := entry_started (s := s)
    (r := { s with seq := .interrupt, t := 1, bflag := false })
    ⟨rfl, (BitVec.add_zero _).symm, rfl, rfl, id, rfl, rfl, fun _ => rfl⟩ ⟨rfl, rfl, rfl, rfl, rfl, rfl, rfl⟩ Seq.noConfusion
  have h := entryTail_enters hw hin hm
  rw [hb, ← hrun, BitVec.add_zero] at h
  exact ⟨h, hnext⟩

/-- An entry ends at a boundary, with nothing untouched changed. -/
theorem takeInterrupt_ends {s : State} (hm : Memory.wf s.mem = true) : Ends s (takeInterrupt s) where
  boundary := runOps_boundary _ [] rfl
  untouched := by
    obtain ⟨h, _⟩ := takeInterrupt_enters hm
    exact ⟨takeInterrupt_profile s, h.halted, runOps_runState .., runOps_breakpoints .., runOps_nextBreakpointId ..,
      runOps_pauseRequested .., runOps_stopReason .., runOps_commands .., h.fault⟩

/-- At a boundary where the last poll chose an interrupt, the sequence is its entry (R120, R390). -/
theorem runSequence_takeInterrupt {s : State} (hseq : s.seq = .fetch) (hh : s.halted = false) (hi : s.intNext ≠ .none) :
    runSequence s = .next (takeInterrupt s) := by
  rw [runSequence, hh, if_neg Bool.false_ne_true, if_neg (not_not_intro hseq), if_pos hi]

theorem sameInputs_scriptTaken (s : State) : SameInputs (scriptTaken s) s := ⟨rfl, rfl, rfl, rfl, rfl, rfl, rfl⟩

/-- Settles O23: the next tick's sequence is the entry. -/
theorem interruptEntrySavesAndVectors : Obligations.InterruptEntrySavesAndVectors := by
  intro s hm ⟨hn, hr⟩ hseq hh hi
  have hrun := runSequence_takeInterrupt (s := scriptTaken s) hseq hh hi
  obtain ⟨h, hnext⟩ := takeInterrupt_enters (s := scriptTaken s) hm
  have hin := (sameInputs_scriptTaken s).sampled 4
  have hserved : SameInputs { sampled 4 (scriptTaken s) with nmiPending := false }
      { sampled 4 s with nmiPending := false } :=
    ⟨hin.profile, hin.inputs, hin.ppuLine, hin.irqAsserting, hin.nmiPrev, rfl, hin.irqSampled⟩
  refine ⟨takeInterrupt (scriptTaken s), ?_, takeInterrupt_ends (s := scriptTaken s) hm, h.view, ?_, ?_, h.vector, h.pc,
    hnext, h.cycles⟩
  · rw [step_tick hn, tick_of_runSequence (s := scriptTaken s) hr hrun]
  · rw [hin.nmiPending]
    exact h.vec
  · rw [(hserved.sampled 3).nmiPending]
    exact h.nmiPending

end Sys2Proof.Machine
end

section
/-! Polling (60_exceptions.md R384 to R386): the cycle of its sequence at whose end an instruction polls, and what it finds
there of the inputs (R382) and of P.I (R394, R442). -/

namespace Sys2Proof.Machine

/-! ### The poll of a cycle -/

/-- The cycle `t` of an instruction's sequence is a poll point, `left` cycles being still to be made (R384 to R386). -/
def pollsAt (op : Byte) (t left : Nat) : Bool :=
  if isBranch op then decide (t = 1) || (decide (t = 3) && decide (left = 1))
  else if op = 0x00 then false
  else decide (left = 1)

theorem isPollPoint_of_instr {s : State} (h : s.seq = .instr) (left : Nat) :
    isPollPoint left s = pollsAt s.ir s.t left := by
  simp only [isPollPoint, h, pollsAt]

/-- Only an interrupt's entry clears the last poll's result (R390 T1). -/
theorem act_intNext_of_ne {u : MicroOp} (hu : u ≠ .entryStart) (v : Byte) (s : State) :
    (u.act v s).intNext = s.intNext := by
  cases u <;> first | rfl | exact absurd rfl hu | (rename_i op; cases op <;> rfl)

/-- The cycles left after a cycle are those left after its register actions. -/
theorem remaining_cycle (u : MicroOp) (us : List MicroOp) (v : Option Byte) (s : State) :
    remaining us (cycle u us v s) = remaining us (u.act (delivered u v s) (accessed u v s)) := by
  simp only [remaining]
  congr 2
  funext w
  rw [skipped_congr w (cycle_crossed ..) (cycle_fN ..) (cycle_fV ..) (cycle_fZ ..) (cycle_fC ..)]

/-- The result of the last poll after a cycle: a poll's at a poll point, else the one that its register actions leave. -/
theorem cycle_intNext (u : MicroOp) (us : List MicroOp) (v : Option Byte) (s : State) :
    (cycle u us v s).intNext =
      if isPollPoint (remaining us (cycle u us v s)) (u.act (delivered u v s) (accessed u v s)) then
        pollResult (sampleInputs (clock (u.act (delivered u v s) (accessed u v s))))
      else (u.act (delivered u v s) (accessed u v s)).intNext := by
  rw [remaining_cycle, cycle_eq, finishCycle, advance_intNext, late_intNext]
  rfl

/-- A cycle that is no poll point keeps the result of the last poll. -/
theorem cycle_intNext_kept {u : MicroOp} (hu : u ≠ .entryStart) {us : List MicroOp} {v : Option Byte} {s : State}
    (h : pollsAt (cycle u us v s).ir s.t (remaining us (cycle u us v s)) = false) :
    (cycle u us v s).intNext = s.intNext := by
  have hpoint : isPollPoint (remaining us (cycle u us v s)) (u.act (delivered u v s) (accessed u v s)) = false := by
    by_cases hseq : s.seq = .instr
    · rw [isPollPoint_of_instr (by simpa using hseq), ← cycle_ir u us v s]
      simpa using h
    · exact isPollPoint_of_ne_instr (by simpa using hseq) _
  rw [cycle_intNext, hpoint, if_neg Bool.false_ne_true, act_intNext_of_ne hu, accessed_intNext]

/-- At a poll point a cycle of an instruction polls what the sampling at its end finds, with I as the cycle leaves it. -/
theorem cycle_intNext_polled {s w : State} {n : Nat} (hin : SameInputs (sampled n s) w) (hseq : w.seq = .instr)
    {u : MicroOp} {us : List MicroOp} {v : Option Byte}
    (h : pollsAt (cycle u us v w).ir w.t (remaining us (cycle u us v w)) = true) :
    (cycle u us v w).intNext = pollAfter (n + 1) (cycle u us v w).fI s := by
  obtain ⟨q, hq⟩ : ∃ q, q = u.act (delivered u v w) (accessed u v w) := ⟨_, rfl⟩
  have hpoint : isPollPoint (remaining us (cycle u us v w)) q = true := by
    rw [isPollPoint_of_instr (by simpa [hq] using hseq), hq, ← cycle_ir u us v w]
    simpa using h
  have hwq : SameInputs w q := by constructor <;> simp [hq]
  have hsampled : SameInputs (sampled (n + 1) s) (sampleInputs (clock q)) := by
    rw [sampled_add]
    exact (hin.trans hwq).sample
  have hfI : (sampleInputs (clock q)).fI = (cycle u us v w).fI := by rw [cycle_fI, ← hq]; rfl
  rw [cycle_intNext, ← hq, if_pos hpoint, pollResult, pollAfter, hsampled.nmiPending, hsampled.irqSampled, hfI]
  simp

/-! ### What the cycles after the opcode fetch keep -/

/-- The micro-operation follows the opcode fetch in an instruction's sequence: it keeps IR and the result of the last poll. -/
def MicroOp.follows : MicroOp → Bool
  | .opcode | .opcodeJam | .opcodeTrap | .entryStart => false
  | _ => true

/-- The cycle is made whatever the state. -/
def MicroOp.always : MicroOp → Bool
  | .fixRead | .branchTake _ | .branchFix _ => false
  | _ => true

theorem skipped_of_always {u : MicroOp} (h : u.always = true) (s : State) : u.skipped s = false := by
  cases u <;> first | rfl | cases h

theorem ne_entryStart_of_follows {u : MicroOp} (h : u.follows = true) : u ≠ .entryStart := by
  rintro rfl
  cases h

theorem cycle_ir_of_follows {u : MicroOp} (h : u.follows = true) (us : List MicroOp) (v : Option Byte) (s : State) :
    (cycle u us v s).ir = s.ir := by
  rw [cycle_ir, ← accessed_ir u v s]
  cases u <;> first | rfl | (rename_i op; cases op <;> rfl) | cases h

/-- A cycle with another left to make counts T on (R120). -/
theorem cycle_t {u : MicroOp} {us : List MicroOp} {v : Option Byte} {s : State}
    (h : remaining us (cycle u us v s) ≠ 0) : (cycle u us v s).t = s.t + 1 := by
  simp only [cycle_eq, finishCycle, remaining_advance] at h
  rw [cycle_eq, finishCycle]
  refine (if_neg h).trans ?_
  simp

/-- With BRK's opcode in IR no cycle is a poll point, so the result of the last poll stays (R386). -/
theorem runOps_intNext_of_brk {us : List MicroOp} (hus : ∀ u ∈ us, u.follows = true) (bytes : List Byte) {s : State}
    (hir : s.ir = 0x00) : (runOps us bytes s).intNext = s.intNext := by
  induction us generalizing bytes s with
  | nil => rfl
  | cons u us ih =>
    obtain ⟨hu, hus⟩ := List.forall_mem_cons.mp hus
    unfold runOps
    split
    · exact ih hus _ hir
    · have hir' := (cycle_ir_of_follows hu us (u.supply bytes) s).trans hir
      rw [ih hus _ hir', cycle_intNext_kept (ne_entryStart_of_follows hu)]
      rw [hir']
      rfl

/-- The first cycle of an instruction fetches its opcode, the bytes after it being left. -/
theorem runOps_opcode (us : List MicroOp) (i : Instr) (s : State) :
    runOps (.opcode :: us) (encode i) s = runOps us (encode i).tail (cycle .opcode us (some i.opcode) s) := by
  rw [runOps_cons rfl, ← encode_head? i]
  rfl

theorem cycle_opcode_ir (us : List MicroOp) (op : Byte) (s : State) : (cycle .opcode us (some op) s).ir = op := by
  rw [cycle_ir]
  rfl

theorem sameInputs_startInstr (s : State) : SameInputs s (startInstr s) := ⟨rfl, rfl, rfl, rfl, rfl, rfl, rfl⟩

/-! ### Polling at the penultimate cycle (R384) -/

theorem pollsAt_of_not_branch {op : Byte} (hb : isBranch op = false) (h0 : op ≠ 0x00) (t left : Nat) :
    pollsAt op t left = decide (left = 1) := by
  rw [pollsAt, hb, if_neg Bool.false_ne_true, if_neg h0]

/-- Cycles of an instruction up to its last, `x`: the poll is made in the cycle before `x`, whichever cycles are skipped, and
finds what `k` more samplings find, with I as that cycle leaves it. -/
theorem runOps_polls_before_last {x : MicroOp} (hx : x.always = true) {us : List MicroOp}
    (hus : ∀ u ∈ us, u.follows = true ∧ u ≠ .pushLoVec) (bytes : List Byte) {s c : State} {n : Nat}
    (hin : SameInputs (sampled n s) c) (hseq : c.seq = .instr) (hb : isBranch c.ir = false) (h0 : c.ir ≠ 0x00)
    (hpoll : remaining (us ++ [x]) c = 1 → c.intNext = pollAfter n c.fI s) :
    ∃ d k v, runOps (us ++ [x]) bytes c = cycle x [] v d ∧ d.cycles = c.cycles + k ∧ d.ir = c.ir ∧
      d.intNext = pollAfter (n + k) d.fI s ∧ ((∀ u ∈ us, Reg.fI ∉ u.writes) → d.fI = c.fI) := by
  have hlast : ∀ (vs : List MicroOp) (r : State), remaining (vs ++ [x]) r ≠ 0 := fun vs r => by
    simp [remaining, skipped_of_always hx]
  induction us generalizing bytes c n with
  | nil => exact ⟨c, 0, _, runOps_cons (skipped_of_always hx c), rfl, rfl,
      hpoll (by simp [remaining, skipped_of_always hx]), fun _ => rfl⟩
  | cons u us ih =>
    obtain ⟨⟨hu, hvec⟩, hus⟩ := List.forall_mem_cons.mp hus
    rw [List.cons_append] at hpoll ⊢
    by_cases hs : u.skipped c = true
    · obtain ⟨d, k, v, hrun, hk, hir, hd, hI⟩ := ih hus bytes hin hseq hb h0 (by simpa [remaining, hs] using hpoll)
      exact ⟨d, k, v, (if_pos hs).trans hrun, hk, hir, hd, fun hw => hI fun w hm => hw w (List.mem_cons_of_mem u hm)⟩
    · have hs : u.skipped c = false := by simpa using hs
      obtain ⟨e, he⟩ : ∃ e, e = cycle u (us ++ [x]) (u.supply bytes) c := ⟨_, rfl⟩
      have hir := he ▸ cycle_ir_of_follows hu (us ++ [x]) (u.supply bytes) c
      have hseq' : e.seq = .instr := he ▸ (cycle_seq (hlast us _)).trans hseq
      have hpolled : remaining (us ++ [x]) e = 1 → e.intNext = pollAfter (n + 1) e.fI s := fun hone => by
        rw [he] at hone ⊢
        refine cycle_intNext_polled hin hseq ?_
        rw [← he, hir, pollsAt_of_not_branch hb h0, he, hone]
        rfl
      obtain ⟨d, k, v, hrun, hk, hdir, hd, hI⟩ := ih hus (u.rest bytes) (he ▸ hin.cycle hvec _ _) hseq'
        (hir ▸ hb) (hir ▸ h0) hpolled
      refine ⟨d, k + 1, v, by rw [runOps_cons hs, ← he, hrun], ?_, hdir.trans hir, ?_, fun hw => ?_⟩
      · rw [hk, he, cycle_cycles]; omega
      · rw [hd]; congr 1; omega
      · have hkeep : e.fI = c.fI := he ▸ cycle_same_of_not_writes (r := .fI) (hw u List.mem_cons_self) _ _ c
        exact (hI fun w hm => hw w (List.mem_cons_of_mem u hm)).trans hkeep

/-- The sequence of an opcode that polls in its penultimate cycle: its opcode fetch, the cycles `us`, and a last cycle `x` that
is always made. RTI restores I before its last cycle; the others write I, if at all, in it (R394, R442). -/
structure PollsBeforeLast (op : Byte) (us : List MicroOp) (x : MicroOp) : Prop where
  sequence  : emulatedSequence op = .opcode :: (us ++ [x])
  follow    : ∀ u ∈ us, u.follows = true ∧ u ≠ .pushLoVec
  last      : x.always = true ∧ x.follows = true
  notBranch : isBranch op = false
  notBrk    : op ≠ 0x00
  writesI   : if (opInfo op).mnemonic = .rti then Reg.fI ∉ x.writes else ∀ u ∈ us, Reg.fI ∉ u.writes

/-- What `PollsBeforeLast` says, as a check of an opcode's sequence. -/
theorem pollsBeforeLast_check (op : Byte) (h : accessClass (opInfo op).mnemonic (opInfo op).mode ∉
      ([.branch, .interrupt, .halt] : List AccessClass)) :
    (emulatedSequence op).head? = some .opcode ∧
      (∀ u ∈ (emulatedSequence op).tail.dropLast, u.follows = true ∧ u ≠ .pushLoVec) ∧
      (emulatedSequence op).tail.getLast?.any (fun x => x.always && x.follows) = true ∧
      isBranch op = false ∧ op ≠ 0x00 ∧
      if (opInfo op).mnemonic = .rti then ∀ x ∈ (emulatedSequence op).tail.getLast?, Reg.fI ∉ x.writes
      else ∀ u ∈ (emulatedSequence op).tail.dropLast, Reg.fI ∉ u.writes := by
  revert op
  decide

/-- Every opcode but a branch's, BRK's and a JAM's is one of them (R384 to R386). -/
theorem exists_pollsBeforeLast {op : Byte} (h : accessClass (opInfo op).mnemonic (opInfo op).mode ∉
    ([.branch, .interrupt, .halt] : List AccessClass)) : ∃ us x, PollsBeforeLast op us x := by
  obtain ⟨hhead, hfollow, hlast, hb, h0, hI⟩ := pollsBeforeLast_check op h
  obtain ⟨x, hx, hkind⟩ := (Option.any_eq_true _ _).mp hlast
  obtain ⟨us, hus⟩ := List.head?_eq_some_iff.mp hhead
  rw [hus, List.tail_cons] at hfollow hx hI
  refine ⟨us.dropLast, x, ?_, hfollow, by simpa using hkind, hb, h0, ?_⟩
  · rw [hus, List.dropLast_append_getLast? x hx]
  · split at hI
    · next hrti => exact (if_pos hrti).mpr (hI x hx)
    · next hrti => exact (if_neg hrti).mpr hI

/-- An opcode's own sequence runs where the policy executes it (R97). -/
theorem sequenceOf_of_executes {i : Instr} {p : Policy} (hw : i.wellFormed = true) (h : i.executes p = true) :
    sequenceOf p i.opcode = emulatedSequence i.opcode := by
  cases hd : i.documented
  case true => exact sequenceOf_legal (by rw [illegal_opcode hw, hd]; rfl)
  case false =>
    obtain rfl : p = .emulate := by simpa [Instr.executes, hd] using h
    exact sequenceOf_emulate _

/-- After the opcode fetch, the cycles of an instruction that polls in its penultimate cycle (R384). -/
theorem PollsBeforeLast.run {op : Byte} {us : List MicroOp} {x : MicroOp} (h : PollsBeforeLast op us x)
    (bytes : List Byte) (s : State) :
    ∃ d k v, runOps (us ++ [x]) bytes (cycle .opcode (us ++ [x]) (some op) (startInstr s)) = cycle x [] v d ∧
      d.cycles = s.cycles + 1 + k ∧ d.ir = op ∧ d.intNext = pollAfter (1 + k) d.fI s ∧
      ((∀ u ∈ us, Reg.fI ∉ u.writes) → d.fI = s.fI) := by
  obtain ⟨c, hc⟩ : ∃ c, c = cycle .opcode (us ++ [x]) (some op) (startInstr s) := ⟨_, rfl⟩
  have hir : c.ir = op := hc ▸ cycle_opcode_ir _ _ _
  have hrem : remaining (us ++ [x]) c ≠ 0 := by simp [remaining, skipped_of_always h.last.1]
  have hin : SameInputs (sampled 0 s) (startInstr s) := sameInputs_startInstr s
  have hpoll : remaining (us ++ [x]) c = 1 → c.intNext = pollAfter 1 c.fI s := fun hone => by
    rw [hc] at hone ⊢
    refine cycle_intNext_polled hin rfl ?_
    rw [← hc, hir, pollsAt_of_not_branch h.notBranch h.notBrk, hc, hone]
    rfl
  obtain ⟨d, k, v, hrun, hk, hdir, hd, hI⟩ := runOps_polls_before_last h.last.1 h.follow bytes
    (hc ▸ hin.cycle (by decide) _ _) (hc ▸ cycle_seq (hc ▸ hrem)) (hir ▸ h.notBranch) (hir ▸ h.notBrk) hpoll
  have hcI : c.fI = s.fI := by rw [hc, cycle_fI]; exact accessed_fI ..
  exact ⟨d, k, v, hc ▸ hrun, by rw [hk, hc, cycle_cycles]; rfl, hdir.trans hir, hd, fun hw => (hI hw).trans hcI⟩

/-- An instruction of the classes that poll in their penultimate cycle polls there (R384, R394, R442). -/
theorem polls_before_last {i : Instr} {s t : State} (hw : i.wellFormed = true) (hx : i.executes s.profile.policy = true)
    (hc : i.accessClass ∉ ([.branch, .interrupt, .halt] : List AccessClass)) (ht : exec i s = .next t) :
    t.intNext = pollAfter (t.cycles - s.cycles - 1) (if i.mnemonic = .rti then t.fI else s.fI) s := by
  obtain ⟨us, x, h⟩ := exists_pollsBeforeLast hc
  obtain ⟨d, k, v, hrun, hk, hir, hd, hI⟩ := h.run (encode i).tail s
  rw [exec_eq i s hw, sequenceOf_of_executes hw hx, h.sequence, runOps_opcode, hrun] at ht
  obtain rfl := Host.Outcome.next.inj ht
  have hkept : (cycle x [] v d).intNext = d.intNext := by
    refine cycle_intNext_kept (ne_entryStart_of_follows h.last.2) ?_
    rw [cycle_ir_of_follows h.last.2, hir, pollsAt_of_not_branch h.notBranch h.notBrk]
    rfl
  have hcount : (cycle x [] v d).cycles - s.cycles - 1 = 1 + k := by rw [cycle_cycles, hk]; omega
  have hmask : (if i.mnemonic = .rti then (cycle x [] v d).fI else s.fI) = d.fI := by
    have hw := h.writesI
    split
    · next hrti => exact cycle_same_of_not_writes (r := .fI) ((if_pos hrti).mp hw) [] v d
    · next hrti => exact (hI ((if_neg hrti).mp hw)).symm
  rw [hkept, hcount, hmask, hd]

/-! ### Branches (R385) -/

/-- The eight conditions. -/
def conditions : List Cond := [.pl, .mi, .vc, .vs, .cc, .cs, .ne, .eq]

/-- A branch's opcode is legal and runs the sequence of its condition (R92, R144). -/
theorem branch_check (op : Byte) (h : accessClass (opInfo op).mnemonic (opInfo op).mode = .branch) :
    isBranch op = true ∧ illegal op = false ∧ ∃ c ∈ conditions, emulatedSequence op = branchOps c := by
  revert op
  decide

theorem pollsAt_of_branch {op : Byte} (hb : isBranch op = true) (t left : Nat) :
    pollsAt op t left = (decide (t = 1) || (decide (t = 3) && decide (left = 1))) := by
  rw [pollsAt, hb, if_pos rfl]

/-- The last cycles of a branch, from its third: a poll at the end of T3 if a T4 follows (R385). -/
theorem branch_last_polls (c : Cond) {s w : State} (hin : SameInputs (sampled 2 s) w) (hseq : w.seq = .instr)
    (hb : isBranch w.ir = true) (ht : w.t = 3) (hc : c.holds w = true) (bytes : List Byte) :
    ∃ t, runOps [.branchTake c, .branchFix c] bytes w = t ∧
      ((t.cycles = w.cycles + 1 ∧ t.intNext = w.intNext) ∨
        (t.cycles = w.cycles + 2 ∧ t.intNext = pollAfter 3 w.fI s)) := by
  obtain ⟨x, hx⟩ : ∃ x, x = cycle (.branchTake c) [.branchFix c] (MicroOp.supply (.branchTake c) bytes) w := ⟨_, rfl⟩
  have htake : runOps [.branchTake c, .branchFix c] bytes w = runOps [.branchFix c] bytes x := by
    rw [runOps_cons (by simp [MicroOp.skipped, hc]), ← hx]
    rfl
  have hir : x.ir = w.ir := hx ▸ cycle_ir_of_follows rfl _ _ _
  have hfI : x.fI = w.fI := by rw [hx, cycle_fI]; exact accessed_fI ..
  have hxc : x.cycles = w.cycles + 1 := by rw [hx, cycle_cycles]
  refine ⟨_, htake, ?_⟩
  cases hfix : MicroOp.skipped (.branchFix c) x
  case true =>
    have hnone : remaining [.branchFix c] x = 0 := by simp [remaining, hfix]
    rw [runOps_of_remaining_zero _ _ _ hnone]
    refine .inl ⟨hxc, ?_⟩
    rw [hx] at hnone hir ⊢
    refine cycle_intNext_kept (ne_entryStart_of_follows rfl) ?_
    rw [hir, pollsAt_of_branch hb, hnone, ht]
    rfl
  case false =>
    have hone : remaining [.branchFix c] x = 1 := by simp [remaining, hfix]
    have hpolled : x.intNext = pollAfter 3 x.fI s := by
      rw [hx] at hone hir ⊢
      refine cycle_intNext_polled hin hseq ?_
      rw [hir, pollsAt_of_branch hb, hone, ht]
      rfl
    have hxt : x.t = 4 := by
      rw [hx] at hone ⊢
      rw [cycle_t (by rw [hone]; decide), ht]
    rw [runOps_cons hfix, runOps_nil]
    refine .inr ⟨by rw [cycle_cycles, hxc], ?_⟩
    rw [← hfI, ← hpolled]
    refine cycle_intNext_kept (ne_entryStart_of_follows rfl) ?_
    rw [cycle_ir_of_follows rfl, hir, pollsAt_of_branch hb, hxt]
    rfl

/-- The fetches of a branch: a poll at the end of T1, none at the end of T2 (R144, R385). -/
theorem branch_fetches_poll {i : Instr} (hb : isBranch i.opcode = true) (c : Cond) (s : State) :
    ∃ w bytes, runOps (branchOps c) (encode i) (startInstr s) = runOps [.branchTake c, .branchFix c] bytes w ∧
      SameInputs (sampled 2 s) w ∧ w.ir = i.opcode ∧ w.fI = s.fI ∧ w.cycles = s.cycles + 2 ∧
      w.intNext = pollAfter 1 s.fI s ∧ (c.holds w = true → w.seq = .instr ∧ w.t = 3) := by
  obtain ⟨x, hx⟩ : ∃ x, x = cycle .opcode [.argOff, .branchTake c, .branchFix c] (some i.opcode) (startInstr s) :=
    ⟨_, rfl⟩
  obtain ⟨w, hw⟩ : ∃ w, w = cycle .argOff [.branchTake c, .branchFix c] (MicroOp.supply .argOff (encode i).tail) x :=
    ⟨_, rfl⟩
  have hin : SameInputs (sampled 0 s) (startInstr s) := sameInputs_startInstr s
  have hin1 : SameInputs (sampled 1 s) x := hx ▸ hin.cycle (by decide) _ _
  have hxir : x.ir = i.opcode := hx ▸ cycle_opcode_ir _ _ _
  have hxrem : remaining [.argOff, .branchTake c, .branchFix c] x ≠ 0 := by simp [remaining, MicroOp.skipped]
  have hxseq : x.seq = .instr := hx ▸ cycle_seq (hx ▸ hxrem)
  have hxt : x.t = 2 := hx ▸ cycle_t (hx ▸ hxrem)
  have hxI : x.fI = s.fI := by rw [hx, cycle_fI]; exact accessed_fI ..
  have hxpolled : x.intNext = pollAfter 1 x.fI s := by
    rw [hx] at hxir ⊢
    refine cycle_intNext_polled hin rfl ?_
    rw [hxir, pollsAt_of_branch hb]
    rfl
  have hwir : w.ir = i.opcode := hw ▸ (cycle_ir_of_follows rfl _ _ x).trans hxir
  refine ⟨w, MicroOp.rest .argOff (encode i).tail, ?_, hw ▸ hin1.cycle (by decide) _ _, hwir, ?_, ?_, ?_, fun hc => ?_⟩
  · rw [branchOps, runOps_opcode, ← hx, runOps_cons rfl, ← hw]
  · rw [hw, cycle_fI, ← hxI]; exact accessed_fI ..
  · rw [hw, cycle_cycles, hx, cycle_cycles]; rfl
  · rw [← hxI, ← hxpolled]
    rw [hw] at hwir ⊢
    refine cycle_intNext_kept (ne_entryStart_of_follows rfl) ?_
    rw [hwir, pollsAt_of_branch hb, hxt]
    rfl
  · have hrem : remaining [.branchTake c, .branchFix c] w ≠ 0 := by simp [remaining, MicroOp.skipped, hc]
    rw [hw] at hrem ⊢
    exact ⟨(cycle_seq hrem).trans hxseq, by rw [cycle_t hrem, hxt]⟩

/-- A branch polls at the end of T1, and again at the end of T3 if a T4 follows (R385). -/
theorem branch_polls {i : Instr} {s t : State} (hw : i.wellFormed = true) (hc : i.accessClass = .branch)
    (ht : exec i s = .next t) : t.intNext = pollAfter (if t.cycles = s.cycles + 4 then 3 else 1) s.fI s := by
  obtain ⟨hb, hlegal, c, _, hseq⟩ := branch_check i.opcode hc
  obtain ⟨w, bytes, hfetch, hin, hir, hI, hk, hpolled, hinside⟩ := branch_fetches_poll hb c s
  rw [exec_eq i s hw, sequenceOf_legal hlegal, hseq, hfetch] at ht
  obtain rfl := Host.Outcome.next.inj ht
  cases hcond : c.holds w
  case false =>
    rw [runOps_of_remaining_zero _ _ _ (by simp [remaining, MicroOp.skipped, hcond]), if_neg (by omega), hpolled]
  case true =>
    obtain ⟨hws, hwt⟩ := hinside hcond
    obtain ⟨t, ht, ⟨hcy, hnext⟩ | ⟨hcy, hnext⟩⟩ := branch_last_polls c hin hws (hir ▸ hb) hwt hcond bytes
    · rw [ht, if_neg (by omega), hnext, hpolled]
    · rw [ht, if_pos (by omega), hnext, hI]

/-! ### No poll (R386) -/

/-- BRK's opcode is $00. -/
theorem opcode_of_interrupt (op : Byte) (h : accessClass (opInfo op).mnemonic (opInfo op).mode = .interrupt) :
    op = 0x00 := by
  revert op
  decide

/-- A JAM's opcode is illegal, and its sequence is its fetch alone (R153). -/
theorem jam_check (op : Byte) (h : accessClass (opInfo op).mnemonic (opInfo op).mode = .halt) :
    illegal op = true ∧ emulatedSequence op = jamOps := by
  revert op
  decide

/-- BRK does not poll (R386). -/
theorem brk_does_not_poll {i : Instr} {s t : State} (hw : i.wellFormed = true) (hc : i.accessClass = .interrupt)
    (ht : exec i s = .next t) : t.intNext = s.intNext := by
  have hop := opcode_of_interrupt i.opcode hc
  have hseq : sequenceOf s.profile.policy i.opcode = .opcode :: .argSig :: entryTail := by
    rw [hop]
    exact sequenceOf_legal rfl
  rw [exec_eq i s hw, hseq, runOps_opcode] at ht
  obtain rfl := Host.Outcome.next.inj ht
  have hir := (cycle_opcode_ir (.argSig :: entryTail) i.opcode (startInstr s)).trans hop
  rw [runOps_intNext_of_brk (by decide) _ hir, cycle_intNext_kept (by decide) (by rw [hir]; rfl), startInstr_intNext]

/-- A trapped opcode does not poll (R386). -/
theorem trapped_does_not_poll {i : Instr} {s t : State} (hw : i.wellFormed = true)
    (hx : i.executes s.profile.policy = false) (ht : exec i s = .next t) : t.intNext = s.intNext := by
  obtain ⟨hd, hpolicy⟩ : i.documented = false ∧ s.profile.policy ≠ .emulate := by simpa [Instr.executes] using hx
  have hill : illegal i.opcode = true := by rw [illegal_opcode hw, hd]; rfl
  have hp : s.profile.policy = .trap := by
    cases h : s.profile.policy
    case trap => rfl
    case emulate => exact absurd h hpolicy
  rw [exec_trapped hw hill hp, runOps_opcodeTrap] at ht
  obtain rfl := Host.Outcome.next.inj ht
  exact opcodeTrap_intNext hill _

/-- A JAM does not poll (R386). -/
theorem jam_does_not_poll {i : Instr} {s t : State} (hw : i.wellFormed = true) (hc : i.accessClass = .halt)
    (hx : i.executes s.profile.policy = true) (ht : exec i s = .next t) : t.intNext = s.intNext := by
  obtain ⟨hill, hseq⟩ := jam_check i.opcode hc
  have hb := isBranch_of_illegal i.opcode hill
  have h0 : i.opcode ≠ 0x00 := fun h => absurd (h ▸ hill) (by decide)
  have hir : ∀ r, (cycle .opcodeJam [] (some i.opcode) r).ir = i.opcode := fun r => by rw [cycle_ir]; rfl
  have hrun : runOps jamOps (encode i) (startInstr s) = cycle .opcodeJam [] (some i.opcode) (startInstr s) := by
    rw [jamOps, runOps_cons rfl, runOps_nil, ← encode_head? i]
    rfl
  rw [exec_eq i s hw, sequenceOf_of_executes hw hx, hseq, hrun] at ht
  obtain rfl := Host.Outcome.next.inj ht
  refine (cycle_intNext_kept (by decide) ?_).trans rfl
  rw [hir, pollsAt_of_not_branch hb h0]
  rfl

/-- Settles O22: an instruction polls in the cycle of its class, or in none. -/
theorem eachInstructionPollsItsCycle : Obligations.EachInstructionPollsItsCycle := by
  intro i s hw
  refine ⟨_, exec_eq i s hw, fun hx hc => polls_before_last hw hx hc (exec_eq i s hw),
    fun hc => branch_polls hw hc (exec_eq i s hw), fun h => ?_⟩
  cases hx : i.executes s.profile.policy
  case false => exact trapped_does_not_poll hw hx (exec_eq i s hw)
  case true =>
    rcases h with hc | hc | hf
    · exact brk_does_not_poll hw hc (exec_eq i s hw)
    · exact jam_does_not_poll hw hc hx (exec_eq i s hw)
    · exact absurd (hx.symm.trans hf) Bool.noConfusion

end Sys2Proof.Machine
end

section
/-! JMP (40_sequencer.md R145, R146; 44_control.md R270): cycles that fetch and address, then one that sets PC alone. -/

namespace Sys2Proof.Machine

/-- A sequence whose cycles keep what address cycles keep ends the instruction. -/
theorem Same.ends {s t : State} (h : Same s t) {us : List MicroOp} {bytes : List Byte}
    (ht : t = runOps (.opcode :: us) bytes (startInstr s)) : Ends s t :=
  ends_of ht (remaining_opcode _ _) h.halted h.fault

theorem exec_jmpAbs (a : Addr) (s : State) :
    exec (.jmpAbs a) s = .next (runOps jmpAbsOps [0x4C, lo a, hi a] (startInstr s)) := rfl

theorem exec_jmpInd (a : Addr) (s : State) :
    exec (.jmpInd a) s = .next (runOps jmpIndOps [0x6C, lo a, hi a] (startInstr s)) := rfl

/-- The absolute form's fetches before the jump latch the low byte of its operand (R145 T1, T2). -/
theorem jmpAbsOps_beforeJump (o l h : Byte) (s : State) :
    ∃ w, runOps jmpAbsOps [o, l, h] (startInstr s) = cycle .argJump [] (some h) w ∧ Same s w ∧ w.ad = zeroPage l ∧
      w.cycles = s.cycles + 2 := by
  refine ⟨cycle .argLo [.argJump] (some l) (cycle .opcode [.argLo, .argJump] (some o) (startInstr s)), rfl,
    ((Same.start s).trans (quiet_same rfl _ _ _)).trans (quiet_same rfl _ _ _), ?_, ?_⟩
  · simp [cycle_ad, MicroOp.act, delivered, MicroOp.access]
  · simp

/-- The indirect form's cycles before the jump keep the pointer in AD and read the low target byte there (R146 T1 to T4). -/
theorem jmpIndOps_beforeJump (o l h : Byte) (s : State) :
    ∃ w, runOps jmpIndOps [o, l, h] (startInstr s) = cycle .ptrJump [] none w ∧ Same s w ∧ w.ad = join h l ∧
      w.cycles = s.cycles + 4 ∧ ∀ v, s.stored (join h l) = some v → w.dl = v := by
  obtain ⟨p, hp, hat⟩ := at_abs o l h [.readDL, .ptrJump] s
  refine ⟨cycle .readDL [.ptrJump] none p, hp, hat.same.trans (quiet_same rfl _ _ _), ?_, ?_, fun v hv => ?_⟩
  · simp [cycle_ad, MicroOp.act, hat.ad]
  · rw [cycle_cycles, hat.cycles]
  · have hread : delivered .readDL none p = v := by
      rw [delivered, MicroOp.access, hat.ad]
      exact hat.same.busValue hv
    simp [cycle_dl, MicroOp.act, hread]

/-- JMP absolute sets PC to its operand and nothing else (R145, R270). -/
theorem jmpAbs_jumps (a : Addr) (s : State) :
    ∃ t, exec (.jmpAbs a) s = .next t ∧ Ends s t ∧ t.view = s.view ∧ t.pc = a ∧ t.cycles = s.cycles + 3 := by
  obtain ⟨w, hrun, hsw, had, hcycles⟩ := jmpAbsOps_beforeJump 0x4C (lo a) (hi a) s
  have hsame := hsw.trans (jump_same (u := .argJump) rfl [] (some (hi a)) w)
  refine ⟨_, by rw [exec_jmpAbs, hrun], hsame.ends (us := jmpAbsOps.tail) hrun.symm, hsame.view, ?_, ?_⟩
  · simp [cycle_pc, MicroOp.act, delivered, MicroOp.access, had]
  · rw [cycle_cycles, hcycles]

/-- JMP indirect sets PC to the word at its pointer, its high byte read in the pointer's own page, and nothing else (R146,
R270, R445). -/
theorem jmpInd_jumps (a : Addr) (s : State) :
    ∃ t, exec (.jmpInd a) s = .next t ∧ Ends s t ∧ t.view = s.view ∧ t.pc = join t.busLatch t.dl ∧
      (∀ p, wordAt s.stored a (nextInPage a) = some p → t.pc = p) ∧ t.cycles = s.cycles + 5 := by
  obtain ⟨w, hrun, hsw, had, hcycles, hdl⟩ := jmpIndOps_beforeJump 0x6C (lo a) (hi a) s
  rw [join_hi_lo] at had hdl
  have hsame := hsw.trans (jump_same (u := .ptrJump) rfl [] none w)
  have hpc : (cycle .ptrJump [] none w).pc = join (cycle .ptrJump [] none w).busLatch w.dl := by
    simp [cycle_pc, cycle_busLatch, MicroOp.act]
  have hkept : (cycle .ptrJump [] none w).dl = w.dl := by simp [cycle_dl, MicroOp.act]
  refine ⟨_, by rw [exec_jmpInd, hrun], hsame.ends (us := jmpIndOps.tail) hrun.symm, hsame.view, by rw [hkept, hpc],
    fun p hp => ?_, by rw [cycle_cycles, hcycles]⟩
  obtain ⟨l, h, hl, hh, rfl⟩ := wordAt_eq_some hp
  have hlatch : (cycle .ptrJump [] none w).busLatch = h :=
    read_busLatch (u := .ptrJump) rfl (by rw [had, hsw.stored]; exact hh) []
  rw [hpc, hlatch, hdl l hl]

/-- Settles O41: the cycles before the jump give it the low byte, and the jump's own read the high one. -/
theorem jmpSetsPc : Obligations.JmpSetsPc := fun a s => ⟨⟨rfl, jmpAbs_jumps a s⟩, ⟨rfl, jmpInd_jumps a s⟩⟩

end Sys2Proof.Machine
end
